-- ==== Sys2Proof/Word.lean ====
section
/-! DEFINITION. The word types of the PD core and the bit test they need (spec 00_scope.md R8, R11). -/

namespace Sys2Proof

/-- A byte of a stream, a status register or a transceiver register (R64, R78). -/
abbrev Byte := BitVec 8

/-- A 32-bit data object of a PD message (R8 `OBJ_BITS`, R96). -/
abbrev Obj := BitVec 32

/-- Bit `i` of a byte, bit 0 the least significant (R11). -/
def Byte.bit (b : Byte) (i : Fin 8) : Bool := b.getLsbD i.val

end Sys2Proof
end

