-- ==== Sys2Proof/Syntax.lean ====
section
/-! DEFINITION. The names the spec gives its enumerations, the PD message record, and the 66 operations of
spec/opcode_table.json (30_encoding.md R90), one constructor each. -/

namespace Sys2Proof

/-- A port index in `0..N_PORTS-1`, `N_PORTS = 2` (R8, R12). -/
inductive Port
  | p0
  | p1
deriving DecidableEq, Repr, Inhabited

/-- The numeric port index (R8). -/
def Port.index : Port → Nat
  | .p0 => 0
  | .p1 => 1

/-- The port of an index; an index of `N_PORTS` or more names no port (93 U17). -/
def Port.ofIndex : Nat → Option Port
  | 0 => some .p0
  | 1 => some .p1
  | _ => none

/-- Every configured port in index order (R75, R220). -/
def Port.all : List Port := [.p0, .p1]

/-- The seven policy states (R21). -/
inductive PolicyState
  | disconnected
  | connected
  | dfpVbusOn
  | dfpConnected
  | dfpAccept
  | idle
  | ready
deriving DecidableEq, Repr, Inhabited

/-- CC polarity: `cc1` is "normal", `cc2` is "flipped" (R22). -/
inductive Polarity
  | cc1
  | cc2
deriving DecidableEq, Repr, Inhabited

/-- Serial-routing selection (R23, R8 `N_ROUTES`). -/
inductive Route
  | primaryUsb
  | altUsb
  | sbu
deriving DecidableEq, Repr, Inhabited

/-- Power role field of a message header (R96). -/
inductive PowerRole
  | sink
  | source
deriving DecidableEq, Repr, Inhabited

/-- Data role field of a message header (R96). -/
inductive DataRole
  | ufp
  | dfp
deriving DecidableEq, Repr, Inhabited

/-- An output level (R42). -/
inductive Level
  | deasserted
  | asserted
deriving DecidableEq, Repr, Inhabited

/-- The message types that have an entry in `MSGCODE` (R99). -/
inductive MsgCode
  | goodCrc
  | accept
  | reject
  | psRdy
  | getSinkCap
  | drSwap
  | prSwap
  | sourceCap
  | request
  | sinkCap
  | vendorDefined
deriving DecidableEq, Repr, Inhabited

/-- At most `MAX_OBJ = 7` data objects (R8, R96): a longer list cannot be written down (93 U16). -/
abbrev Objs := { l : List Obj // l.length ≤ 7 }

/-- The first seven entries of a list as an object list. -/
def Objs.clip (l : List Obj) : Objs := ⟨l.take 7, List.length_take_le 7 l⟩

/-- A PD message record (R96). The object count is the length of `obj`, as the codec guarantees (R97). -/
structure Msg where
  type : Nat
  prole : PowerRole
  drole : DataRole
  rev : Nat
  obj : Objs
deriving DecidableEq, Repr

/-- The object count `nobj` of a message (R96). -/
def Msg.nobj (m : Msg) : Nat := m.obj.val.length

/-- What the codec hands over for one popped record: a message, or nothing usable (R65, R98 row 1). -/
inductive RxRecord
  | garbage
  | message (m : Msg)
deriving DecidableEq, Repr

/-- The four SET ACTION commands, the last one with its route (R102). -/
inductive VdmAction
  | reboot
  | dfuHold
  | pdReset
  | serialRoute (r : Route)
deriving DecidableEq, Repr

/-- The label of a transmission, as the spec's vectors name it (R108 `tx p CLASS`). -/
inductive TxKind
  | sourceCap
  | request
  | accept
  | reject
  | psRdy
  | sinkCap
  | probe
  | identityAck
  | vdmReboot
  | vdmDfuHold
  | vdmPdReset
  | vdmSerialRoute (r : Route)
deriving DecidableEq, Repr

/-- Which validation of `SETUP` failed (R121, R241). -/
inductive AbsenceCause
  | busLow
  | badId
deriving DecidableEq, Repr

/-- The content of a log line, by kind (R267). Kinds `vdmAck` and `diag` are of class `VERBOSE`, the others of
class `ALWAYS` (R260). -/
inductive LogBody
  | absent (c : AbsenceCause)
  | unhandledMsg (m : Msg)
  | unhandledVdm (m : Msg)
  | help (entries : List (Port × Bool))
  | vdmAck (m : Msg)
  | diag (text : List Byte)
deriving DecidableEq, Repr

/-- What brings a device reset about (R265): power-on, or the watchdog that `CMD_SELF_RESET` arms. -/
inductive ResetCause
  | powerOn
  | watchdog
deriving DecidableEq, Repr

/-- The 66 operations of R90, in the order of spec/opcode_table.json. `p` is the port, `m` a received message,
`b` a byte, `hint` the duration hint of a break call, which the core ignores (R206). The hardware binding of
`SETUP` is not state and not an operand of the model (R24). -/
inductive Instr
  | setup (p : Port)
  | tick (p : Port)
  | pollDisconnected (p : Port)
  | onAttach (p : Port)
  | tickVbusOn (p : Port)
  | tickReady (p : Port)
  | debounce (p : Port)
  | onTxComplete (p : Port)
  | disconnect (p : Port)
  | vbusOff (p : Port)
  | onMessage (p : Port) (m : RxRecord)
  | rxSourceCap (p : Port) (m : Msg)
  | rxRequest (p : Port) (m : Msg)
  | rxVdm (p : Port) (m : Msg)
  | rxPrSwap (p : Port) (m : Msg)
  | rxDrSwap (p : Port) (m : Msg)
  | rxGetSinkCap (p : Port) (m : Msg)
  | rxEmpty (p : Port) (m : RxRecord)
  | rxOther (p : Port) (m : Msg)
  | vdmDiscoverIdentityReq (p : Port) (m : Msg)
  | vdmDiscoverIdentityAck (p : Port) (m : Msg)
  | vdmOther (p : Port) (m : Msg)
  | txSourceCap (p : Port)
  | txRequest (p : Port)
  | txAccept (p : Port)
  | txReject (p : Port)
  | txPsRdy (p : Port)
  | txSinkCap (p : Port)
  | txProbe (p : Port)
  | txIdentityAck (p : Port)
  | txVdmReboot (p : Port)
  | txVdmDfuHold (p : Port)
  | txVdmPdReset (p : Port)
  | txVdmSerialRoute (p : Port)
  | irqHandler
  | service (p : Port)
  | evVbusGood (p : Port)
  | evHardReset (p : Port)
  | evTxSuccess (p : Port)
  | evMsgRx (p : Port)
  | rearm (p : Port)
  | muxPump (p : Port)
  | pass (p : Port) (b : Byte)
  | escArm (p : Port)
  | escLiteral (p : Port)
  | cmdRebootTarget (p : Port)
  | cmdSelfReset (p : Port)
  | cmdFwUpdate (p : Port)
  | cmdForceDisconnect (p : Port)
  | cmdToggleVerbose (p : Port)
  | cmdDebugProbe (p : Port)
  | cmdRoute1 (p : Port)
  | cmdRoute2 (p : Port)
  | cmdHelp (p : Port)
  | cmdDrop (p : Port) (b : Byte)
  | breakBegin (p : Port) (hint : Nat)
  | breakEnd (p : Port) (hint : Nat)
  | uartRxIrq (p : Port) (b : Byte)
  | ringPut (p : Port) (b : Byte)
  | ringGet (p : Port)
  | drainToHost (p : Port)
  | mainEntry
  | runPass
  | transportService
  | idleWait
  | deviceReset (c : ResetCause)
deriving DecidableEq, Repr

end Sys2Proof
end

