-- ==== Sys2Proof/Config.lean ====
section
/-! DEFINITION. The parameters the source fixes (00_scope.md R8), the parameters it leaves open (R9, 93 U11) as a
record of plain data with the spec's defaults, and the free values of the model: opaque constants without a body,
of which nothing can be proved. -/

namespace Sys2Proof

/-! ## Parameters the source fixes (R8) -/

/-- The escape byte (R8 `ESC`). -/
def Config.esc : Byte := 0x1F

/-- Source-capability retry threshold in ticks (R8 `SRC_CAP_RETRY`). -/
def Config.srcCapRetry : Nat := 37

/-- Detach needs more than this many consecutive low readings (R8 `DEBOUNCE_LIMIT`). -/
def Config.debounceLimit : Nat := 5

/-- The sleep after a poll that found no attach, in milliseconds (R8 `POLL_SLEEP_MS`). -/
def Config.pollSleepMs : Nat := 200

/-! ## Free values (assumption log 5 to 10, 40) -/

/-- Spec revision sent in a header (R9 `SPEC_REV`, open). -/
opaque Config.specRev : Nat
/-- The one Source-Capabilities object (R9 `SRC_CAP_OBJS`, open). -/
opaque Config.srcCapObj : Obj
/-- The one Request object (R9 `REQUEST_OBJS`, open). -/
opaque Config.requestObj : Obj
/-- First Sink-Capabilities object (R9 `SINK_CAP_OBJS`, 1 to 7 objects, open). -/
opaque Config.sinkCapFirst : Obj
/-- Further Sink-Capabilities objects. -/
opaque Config.sinkCapRest : List Obj
/-- Further identity objects (R9 `IDENTITY_OBJS`, 1 to 7 objects, open); the first is the ack header below. -/
opaque Config.identityRest : List Obj
/-- Message type of the debug-channel probe (R9 `PROBE_MSG`, open). -/
opaque Config.probeCode : MsgCode
/-- Objects of the debug-channel probe. -/
opaque Config.probeObjs : List Obj
/-- Address of the chip identity register (R9 `ID_REG_ADDR`, open). -/
opaque Config.idRegAddr : Nat
/-- Whether the byte at the named address is the high byte of a 16-bit register access: the byte order on the bus is the
driver's (R61, R78; assumption log 40). -/
opaque Config.reg16HighFirst : Bool
/-- Bit of the VBUS-good event (R9, D16, open): status register and bit. -/
opaque Config.evVbusGoodBit : Fin 3 × Fin 8
/-- Bit of the hard-reset event. -/
opaque Config.evHardResetBit : Fin 3 × Fin 8
/-- Bit of the transmit-success event. -/
opaque Config.evTxSuccessBit : Fin 3 × Fin 8
/-- Bit of the message-received event. -/
opaque Config.evMsgRxBit : Fin 3 × Fin 8

/-- Role fields of a transmission made while the header role is unset (R149, 93 U6): free, by the counter. -/
opaque Config.freeRoles : Nat → PowerRole × DataRole
/-- The `DIAG` lines an operation emits while verbose (R267, 93 U12): any number, any text, by the counter. -/
opaque Config.diagLines : Nat → List (List Byte)
/-- Whether the optional `VDM_ACK` line is emitted (R159), by the counter. -/
opaque Config.ackLogged : Nat → Bool
/-- Which of two ready interrupt lines the handler takes first (R171(a)), by the counter. -/
opaque Config.irqFirst : Nat → Port
/-- The text of a log line without its port tag (R267, 93 U12): not in the source. -/
opaque Config.logText : LogBody → List Byte

/-! ## Parameters the source leaves open (R9), as data -/

/-- One bit of the three interrupt-status registers: register index 0 to 2 and bit (R95, D16). -/
structure StatusBit where
  reg : Fin 3
  bit : Fin 8
deriving DecidableEq, Repr

/-- A pattern over a 32-bit object: `o` matches when `o &&& mask = value`. A list of patterns stands for any
predicate over an object (R101). -/
structure ObjPattern where
  mask : Obj
  value : Obj
deriving DecidableEq, Repr

/-- The six object lists of the transmitted SET ACTION commands (R102). -/
structure ActionObjs where
  reboot : Objs
  dfuHold : Objs
  pdReset : Objs
  routePrimary : Objs
  routeAlt : Objs
  routeSbu : Objs
deriving DecidableEq, Repr

/-- The six lists of the domain of `VDM_ACTION_OBJS` (R102). -/
def ActionObjs.lists (a : ActionObjs) : List Objs :=
  [a.reboot, a.dfuHold, a.pdReset, a.routePrimary, a.routeAlt, a.routeSbu]

/-- The constraint R9 and R102 put on the SET ACTION lists: 2 to 7 objects each, and different commands differ. -/
def ActionObjs.ok (a : ActionObjs) : Bool := a.lists.all (fun l => decide (2 ≤ l.val.length)) && decide a.lists.Nodup

/-- The numeric message types (R99 `MSGCODE`). -/
structure MsgCodes where
  goodCrc : Nat
  accept : Nat
  reject : Nat
  psRdy : Nat
  getSinkCap : Nat
  drSwap : Nat
  prSwap : Nat
  sourceCap : Nat
  request : Nat
  sinkCap : Nat
  vendorDefined : Nat
deriving DecidableEq, Repr

/-- The parameters of R9, one field per row of its table (the durations `VBUS_SETTLE` and `WDOG_TIMEOUT` are not
state and no rule's outcome depends on them; they have no field). -/
structure Params where
  attachThreshold : Nat
  ccMax : Nat
  ringCap : Nat
  idRegAddr : Nat
  idValidMask : Byte
  intStatusAddrA : Nat
  intStatusAddrB : Nat
  intStatusAddrC : Nat
  evVbusGood : StatusBit
  evHardReset : StatusBit
  evTxSuccess : StatusBit
  evMsgRx : StatusBit
  msgCodes : MsgCodes
  discIdReq : List ObjPattern
  discIdAck : List ObjPattern
  specRev : Nat
  srcCapObjs : Objs
  requestObjs : Objs
  sinkCapObjs : Objs
  identityObjs : Objs
  probeCode : MsgCode
  probeObjs : Objs
  actions : ActionObjs
  portTag0 : Byte
  portTag1 : Byte
  routeOfKey1 : Route
  routeOfKey2 : Route
  indicatorLevel : Level
  verboseReset : Bool
deriving DecidableEq, Repr

/-- The USB-PD type numbers the spec gives as defaults (R99, 93 G1). PRESUMED: unsafe, assumption log 34. -/
def MsgCodes.default : MsgCodes where
  goodCrc := 1
  accept := 3
  reject := 4
  psRdy := 6
  getSinkCap := 8
  drSwap := 9
  prSwap := 10
  sourceCap := 1
  request := 2
  sinkCap := 4
  vendorDefined := 15

/-! ## Open parameters under a constraint (R9)

An opaque constant of a type that carries the constraint: any admissible value, and nothing more is known of it. The
`Inhabited` argument only shows that there is one. -/

/-- Six SET ACTION lists that meet R102. -/
abbrev ActionTable := { a : ActionObjs // a.ok = true }
/-- `VDM_ACTION_OBJS` (R9, R102, open): injective, nothing else known. -/
opaque Config.actionTable [Inhabited ActionTable] : ActionTable
/-- Some SET ACTION lists that meet R102. -/
def ActionTable.some : ActionTable :=
  ⟨⟨Objs.clip [0, 0], Objs.clip [0, 1], Objs.clip [0, 2], Objs.clip [0, 3], Objs.clip [0, 4], Objs.clip [0, 5]⟩, by decide⟩

/-- Three register addresses that differ. -/
abbrev StatusAddrs := { x : Nat × Nat × Nat // x.1 ≠ x.2.1 ∧ x.1 ≠ x.2.2 ∧ x.2.1 ≠ x.2.2 }
/-- `INT_STATUS_ADDR[0..2]` (R9, open): distinct, nothing else known. -/
opaque Config.intStatusAddrs [Inhabited StatusAddrs] : StatusAddrs
/-- Some three addresses that differ. -/
def StatusAddrs.some : StatusAddrs := ⟨(0, 1, 2), by decide⟩

/-- The test of a DISCOVER_IDENTITY request under the structured-VDM layout (R101, 93 G3). PRESUMED: assumption log 34. -/
def discIdReqDefault : ObjPattern := ⟨0x80DF, 0x8001⟩
/-- The test of a DISCOVER_IDENTITY ack under the structured-VDM layout (R101, 93 G3). PRESUMED: assumption log 34. -/
def discIdAckDefault : ObjPattern := ⟨0x80DF, 0x8041⟩

/-- An object that is the header of a DISCOVER_IDENTITY ack. -/
abbrev AckHeader := { o : Obj // o &&& discIdAckDefault.mask = discIdAckDefault.value }
/-- The first object of `IDENTITY_OBJS` (R9, R157, open): the VDM header of the ack, nothing else known. -/
opaque Config.identityFirst [Inhabited AckHeader] : AckHeader
/-- Some ack header. -/
def AckHeader.some : AckHeader := ⟨0x8041, by decide⟩

/-- A status bit from an opaque pair. -/
def StatusBit.ofPair (x : Fin 3 × Fin 8) : StatusBit := ⟨x.1, x.2⟩

/-- The parameters of the machine after reset: the spec's default where R9 has one (DESIGN CHOICE of the spec,
unsafe), an opaque constant where R9 says open (safe). Assumption log 5 and 34. -/
def Params.default : Params where
  attachThreshold := 2
  ccMax := 3
  ringCap := 16
  idRegAddr := Config.idRegAddr
  idValidMask := 0x80
  intStatusAddrA := (@Config.intStatusAddrs ⟨StatusAddrs.some⟩).val.1
  intStatusAddrB := (@Config.intStatusAddrs ⟨StatusAddrs.some⟩).val.2.1
  intStatusAddrC := (@Config.intStatusAddrs ⟨StatusAddrs.some⟩).val.2.2
  evVbusGood := StatusBit.ofPair Config.evVbusGoodBit
  evHardReset := StatusBit.ofPair Config.evHardResetBit
  evTxSuccess := StatusBit.ofPair Config.evTxSuccessBit
  evMsgRx := StatusBit.ofPair Config.evMsgRxBit
  msgCodes := MsgCodes.default
  discIdReq := [discIdReqDefault]
  discIdAck := [discIdAckDefault]
  specRev := Config.specRev
  srcCapObjs := Objs.clip [Config.srcCapObj]
  requestObjs := Objs.clip [Config.requestObj]
  sinkCapObjs := Objs.clip (Config.sinkCapFirst :: Config.sinkCapRest.take 6)
  identityObjs := Objs.clip ((@Config.identityFirst ⟨AckHeader.some⟩).val :: Config.identityRest.take 6)
  probeCode := Config.probeCode
  probeObjs := Objs.clip Config.probeObjs
  actions := (@Config.actionTable ⟨ActionTable.some⟩).val
  portTag0 := 0x30
  portTag1 := 0x31
  routeOfKey1 := .primaryUsb
  routeOfKey2 := .sbu
  indicatorLevel := .asserted
  verboseReset := false

end Sys2Proof
end

