-- ==== Sys2Proof/Decode.lean ====
section
/-! DEFINITION. How an input selects an operation (spec 30_encoding.md): the five formats BYTE, EVT, MSG, VDM and
CALL, the operations of format PROC that other operations invoke, the decoder, and after it the encoder. -/

namespace Sys2Proof

/-! ## Format BYTE (R92 to R94) -/

/-- The operations a host byte selects (R92, R93). -/
inductive ByteOp
  | pass (b : Byte)
  | escArm
  | escLiteral
  | cmdRebootTarget
  | cmdSelfReset
  | cmdFwUpdate
  | cmdForceDisconnect
  | cmdToggleVerbose
  | cmdDebugProbe
  | cmdRoute1
  | cmdRoute2
  | cmdHelp
  | cmdDrop (b : Byte)
deriving DecidableEq, Repr

/-- Default mode, first match wins (R92). -/
def decodeDefault (b : Byte) : ByteOp :=
  if b = Config.esc then .escArm else .pass b

/-- Armed mode, first match wins (R93). -/
def decodeArmed (b : Byte) : ByteOp :=
  if b = 0x1F then .escLiteral
  else if b = 0x21 then .cmdRebootTarget
  else if b = 0x12 then .cmdSelfReset
  else if b = 0x1E then .cmdFwUpdate
  else if b = 0x18 then .cmdForceDisconnect
  else if b = 0x04 then .cmdToggleVerbose
  else if b = 0x0D then .cmdDebugProbe
  else if b = 0x31 then .cmdRoute1
  else if b = 0x32 then .cmdRoute2
  else if b = 0x3F then .cmdHelp
  else .cmdDrop b

/-- The byte decoder: the byte and the mode bit `P[p].esc` beside it (R91, R94). It reads the BYTE rows of the opcode table,
the default of each mode last (R111). -/
def decodeByte (esc : Bool) (b : Byte) : ByteOp :=
  if esc then decodeArmed b else decodeDefault b

/-- The operation of a byte on port `p`. -/
def ByteOp.instr (p : Port) : ByteOp → Instr
  | .pass b => .pass p b
  | .escArm => .escArm p
  | .escLiteral => .escLiteral p
  | .cmdRebootTarget => .cmdRebootTarget p
  | .cmdSelfReset => .cmdSelfReset p
  | .cmdFwUpdate => .cmdFwUpdate p
  | .cmdForceDisconnect => .cmdForceDisconnect p
  | .cmdToggleVerbose => .cmdToggleVerbose p
  | .cmdDebugProbe => .cmdDebugProbe p
  | .cmdRoute1 => .cmdRoute1 p
  | .cmdRoute2 => .cmdRoute2 p
  | .cmdHelp => .cmdHelp p
  | .cmdDrop b => .cmdDrop p b

/-! ## Format EVT (R95) -/

/-- The four semantic events, in their fixed order (R95). -/
inductive EvKind
  | vbusGood
  | hardReset
  | txSuccess
  | msgRx
deriving DecidableEq, Repr

/-- The three interrupt-status bytes of one read (R64, R95). -/
structure StatusBytes where
  ra : Byte
  rb : Byte
  rc : Byte
deriving DecidableEq, Repr

/-- The status byte of a register index. -/
def StatusBytes.get (s : StatusBytes) (i : Fin 3) : Byte :=
  if i = 0 then s.ra else if i = 1 then s.rb else s.rc

/-- A single-bit test of the three status bytes (R9 row `EV_*`, D16). -/
def StatusBit.test (b : StatusBit) (s : StatusBytes) : Bool := (s.get b.reg).bit b.bit

/-- The status bit of an event (R95). -/
def Params.evBit (c : Params) : EvKind → StatusBit
  | .vbusGood => c.evVbusGood
  | .hardReset => c.evHardReset
  | .txSuccess => c.evTxSuccess
  | .msgRx => c.evMsgRx

/-- The predicate of an event (R95). -/
def evTest (c : Params) (s : StatusBytes) (k : EvKind) : Bool := (c.evBit k).test s

/-- The events of a status read: every true predicate, in the fixed order (R95, R178). -/
def decodeStatus (c : Params) (s : StatusBytes) : List EvKind :=
  [EvKind.vbusGood, .hardReset, .txSuccess, .msgRx].filter (evTest c s)

/-- The operation of an event on port `p` (R95). -/
def EvKind.instr (p : Port) : EvKind → Instr
  | .vbusGood => .evVbusGood p
  | .hardReset => .evHardReset p
  | .txSuccess => .evTxSuccess p
  | .msgRx => .evMsgRx p

/-! ## Format MSG (R96 to R99) -/

/-- The numeric type of a message (R99). -/
def MsgCodes.get (c : MsgCodes) : MsgCode → Nat
  | .goodCrc => c.goodCrc
  | .accept => c.accept
  | .reject => c.reject
  | .psRdy => c.psRdy
  | .getSinkCap => c.getSinkCap
  | .drSwap => c.drSwap
  | .prSwap => c.prSwap
  | .sourceCap => c.sourceCap
  | .request => c.request
  | .sinkCap => c.sinkCap
  | .vendorDefined => c.vendorDefined

/-- The eight classes of a received record (R98). -/
inductive RxClass
  | empty
  | sourceCap
  | request
  | vendorDefined
  | prSwap
  | drSwap
  | getSinkCap
  | other
deriving DecidableEq, Repr

/-- `Class(m)` of a message, first match wins (R98 rows 1 to 8). -/
def classOfMsg (c : Params) (m : Msg) : RxClass :=
  if m.nobj = 0 ∧ m.type = c.msgCodes.get .goodCrc then .empty
  else if m.nobj > 0 ∧ m.type = c.msgCodes.get .sourceCap then .sourceCap
  else if m.nobj > 0 ∧ m.type = c.msgCodes.get .request then .request
  else if m.nobj > 0 ∧ m.type = c.msgCodes.get .vendorDefined then .vendorDefined
  else if m.nobj = 0 ∧ m.type = c.msgCodes.get .prSwap then .prSwap
  else if m.nobj = 0 ∧ m.type = c.msgCodes.get .drSwap then .drSwap
  else if m.nobj = 0 ∧ m.type = c.msgCodes.get .getSinkCap then .getSinkCap
  else .other

/-- The operation `ON_MESSAGE` runs for a received record (R98, R140). -/
inductive RxOp
  | empty (r : RxRecord)
  | sourceCap (m : Msg)
  | request (m : Msg)
  | vendorDefined (m : Msg)
  | prSwap (m : Msg)
  | drSwap (m : Msg)
  | getSinkCap (m : Msg)
  | other (m : Msg)
deriving DecidableEq, Repr

/-- The message decoder: an unusable record and a bare GoodCRC are `EMPTY` (R98 row 1). -/
def decodeRecord (c : Params) : RxRecord → RxOp
  | .garbage => .empty .garbage
  | .message m =>
    match classOfMsg c m with
    | .empty => .empty (.message m)
    | .sourceCap => .sourceCap m
    | .request => .request m
    | .vendorDefined => .vendorDefined m
    | .prSwap => .prSwap m
    | .drSwap => .drSwap m
    | .getSinkCap => .getSinkCap m
    | .other => .other m

/-- The operation of a received record on port `p` (R98). -/
def RxOp.instr (p : Port) : RxOp → Instr
  | .empty r => .rxEmpty p r
  | .sourceCap m => .rxSourceCap p m
  | .request m => .rxRequest p m
  | .vendorDefined m => .rxVdm p m
  | .prSwap m => .rxPrSwap p m
  | .drSwap m => .rxDrSwap p m
  | .getSinkCap m => .rxGetSinkCap p m
  | .other m => .rxOther p m

/-! ## Format VDM (R100, R101) -/

/-- Whether an object matches one of the patterns that stand for a predicate (R101). -/
def matchesAny (ps : List ObjPattern) (o : Obj) : Bool := ps.any fun q => o &&& q.mask == q.value

/-- The three classes of a received VDM (R101). -/
inductive VdmClass
  | discoverIdentityReq
  | discoverIdentityAck
  | other
deriving DecidableEq, Repr

/-- `VdmClass(obj)`, first match wins (R101); a VDM without a first object is `VDM_OTHER`. -/
def vdmClass (c : Params) (m : Msg) : VdmClass :=
  match m.obj.val with
  | [] => .other
  | o :: _ =>
    if matchesAny c.discIdReq o then .discoverIdentityReq
    else if matchesAny c.discIdAck o then .discoverIdentityAck
    else .other

/-- The operation of a VDM on port `p` (R101). -/
def VdmClass.instr (p : Port) (m : Msg) : VdmClass → Instr
  | .discoverIdentityReq => .vdmDiscoverIdentityReq p m
  | .discoverIdentityAck => .vdmDiscoverIdentityAck p m
  | .other => .vdmOther p m

/-! ## Selectors: one input of any format (R91, R104) -/

/-- A message record as a codec outside the block might hand it over, with its own object count (R96). -/
structure RawMsg where
  type : Nat
  nobj : Nat
  prole : PowerRole
  drole : DataRole
  rev : Nat
  obj : List Obj
deriving DecidableEq, Repr

/-- A raw record: nothing usable, or a raw message. -/
inductive RawRecord
  | garbage
  | message (m : RawMsg)
deriving DecidableEq, Repr

/-- The calls across the boundary that are not bytes (R104); a port is named by its index. -/
inductive Call
  | setup (p : Nat)
  | chipIrq
  | uartByte (p : Nat) (b : Byte)
  | breakBegin (p : Nat) (hint : Nat)
  | breakEnd (p : Nat) (hint : Nat)
  | deviceReset (c : ResetCause)
deriving DecidableEq, Repr

/-- The operations of format PROC that act on a port and take nothing else (R91, opcode table). -/
inductive PortProc
  | tick
  | pollDisconnected
  | onAttach
  | tickVbusOn
  | tickReady
  | debounce
  | onTxComplete
  | disconnect
  | vbusOff
  | txSourceCap
  | txRequest
  | txAccept
  | txReject
  | txPsRdy
  | txSinkCap
  | txProbe
  | txIdentityAck
  | txVdmReboot
  | txVdmDfuHold
  | txVdmPdReset
  | txVdmSerialRoute
  | service
  | rearm
  | muxPump
  | ringGet
  | drainToHost
deriving DecidableEq, Repr

/-- The operations of format PROC of the whole device (44 R220 to R228). -/
inductive DeviceProc
  | mainEntry
  | runPass
  | transportService
  | idleWait
deriving DecidableEq, Repr

/-- One selection of an operation, in one of the formats of R91. -/
inductive Selector
  | byte (p : Nat) (esc : Bool) (b : Byte)
  | evt (p : Nat) (k : EvKind)
  | msg (p : Nat) (r : RawRecord)
  | vdm (p : Nat) (m : RawMsg)
  | call (c : Call)
  | procPort (f : PortProc) (p : Nat)
  | procOnMessage (p : Nat) (r : RawRecord)
  | procRingPut (p : Nat) (b : Byte)
  | procDevice (f : DeviceProc)
deriving DecidableEq, Repr

/-- Why a selector is no operation. -/
inductive DecodeError
  /-- A port index of `N_PORTS` or more (93 U17): raised by `decodePort`. Safe. -/
  | noSuchPort
  /-- `nobj` above 7, or an object list of another length (R97, 93 U16): raised by `decodeMsg`. Safe. -/
  | malformedMessage
  /-- A VDM selector whose message is not of class `VENDOR_DEFINED` (R100): raised by `decode`. Safe. -/
  | notVendorDefined
deriving DecidableEq, Repr

/-- The port of an index, or a rejection by name. -/
def decodePort (n : Nat) : Except DecodeError Port :=
  match Port.ofIndex n with
  | some p => .ok p
  | none => .error .noSuchPort

/-- The message of a raw record: the codec's guarantee of R97, checked. -/
def decodeMsg (m : RawMsg) : Except DecodeError Msg :=
  if h : m.obj.length = m.nobj ∧ m.nobj ≤ 7 then
    .ok ⟨m.type, m.prole, m.drole, m.rev, ⟨m.obj, by rw [h.1]; exact h.2⟩⟩
  else .error .malformedMessage

/-- The record of a raw record. -/
def decodeRaw : RawRecord → Except DecodeError RxRecord
  | .garbage => .ok .garbage
  | .message m => (decodeMsg m).map .message

/-- A CALL selector (R104). -/
def decodeCall : Call → Except DecodeError Instr
  | .setup n => (decodePort n).map .setup
  | .chipIrq => .ok .irqHandler
  | .uartByte n b => (decodePort n).map (.uartRxIrq · b)
  | .breakBegin n h => (decodePort n).map (.breakBegin · h)
  | .breakEnd n h => (decodePort n).map (.breakEnd · h)
  | .deviceReset c => .ok (.deviceReset c)

/-- A PROC selector on a port. -/
def PortProc.instr (p : Port) : PortProc → Instr
  | .tick => .tick p
  | .pollDisconnected => .pollDisconnected p
  | .onAttach => .onAttach p
  | .tickVbusOn => .tickVbusOn p
  | .tickReady => .tickReady p
  | .debounce => .debounce p
  | .onTxComplete => .onTxComplete p
  | .disconnect => .disconnect p
  | .vbusOff => .vbusOff p
  | .txSourceCap => .txSourceCap p
  | .txRequest => .txRequest p
  | .txAccept => .txAccept p
  | .txReject => .txReject p
  | .txPsRdy => .txPsRdy p
  | .txSinkCap => .txSinkCap p
  | .txProbe => .txProbe p
  | .txIdentityAck => .txIdentityAck p
  | .txVdmReboot => .txVdmReboot p
  | .txVdmDfuHold => .txVdmDfuHold p
  | .txVdmPdReset => .txVdmPdReset p
  | .txVdmSerialRoute => .txVdmSerialRoute p
  | .service => .service p
  | .rearm => .rearm p
  | .muxPump => .muxPump p
  | .ringGet => .ringGet p
  | .drainToHost => .drainToHost p

/-- A PROC selector of the device. -/
def DeviceProc.instr : DeviceProc → Instr
  | .mainEntry => .mainEntry
  | .runPass => .runPass
  | .transportService => .transportService
  | .idleWait => .idleWait

/-- The operation of a VDM message, if its class is `VENDOR_DEFINED` (R100, R101). -/
def decodeVdm (c : Params) (p : Port) (m : Msg) : Except DecodeError Instr :=
  if classOfMsg c m = .vendorDefined then .ok ((vdmClass c m).instr p m) else .error .notVendorDefined

/-- The decoder: total, every selector is an operation or is rejected by name (R91, R106, R110). -/
def decode (c : Params) : Selector → Except DecodeError Instr
  | .byte n e b => (decodePort n).map fun p => (decodeByte e b).instr p
  | .evt n k => (decodePort n).map k.instr
  | .msg n r => (decodePort n).bind fun p => (decodeRaw r).map fun r => (decodeRecord c r).instr p
  | .vdm n m => (decodePort n).bind fun p => (decodeMsg m).bind fun m => decodeVdm c p m
  | .call x => decodeCall x
  | .procPort f n => (decodePort n).map fun p => f.instr p
  | .procOnMessage n r => (decodePort n).bind fun p => (decodeRaw r).map fun r => .onMessage p r
  | .procRingPut n b => (decodePort n).map fun p => .ringPut p b
  | .procDevice f => .ok f.instr

/-! ## The encoder -/

/-- A message as a raw record. -/
def Msg.raw (m : Msg) : RawMsg := ⟨m.type, m.nobj, m.prole, m.drole, m.rev, m.obj.val⟩

/-- A record as a raw record. -/
def RxRecord.raw : RxRecord → RawRecord
  | .garbage => .garbage
  | .message m => .message m.raw

/-- The input that selects an operation: for format BYTE the byte and the mode bit of R92 and R93, for the other
formats the event, the record, the call or the name. -/
def encode : Instr → Selector
  | .setup p => .call (.setup p.index)
  | .tick p => .procPort .tick p.index
  | .pollDisconnected p => .procPort .pollDisconnected p.index
  | .onAttach p => .procPort .onAttach p.index
  | .tickVbusOn p => .procPort .tickVbusOn p.index
  | .tickReady p => .procPort .tickReady p.index
  | .debounce p => .procPort .debounce p.index
  | .onTxComplete p => .procPort .onTxComplete p.index
  | .disconnect p => .procPort .disconnect p.index
  | .vbusOff p => .procPort .vbusOff p.index
  | .onMessage p r => .procOnMessage p.index r.raw
  | .rxSourceCap p m => .msg p.index (.message m.raw)
  | .rxRequest p m => .msg p.index (.message m.raw)
  | .rxVdm p m => .msg p.index (.message m.raw)
  | .rxPrSwap p m => .msg p.index (.message m.raw)
  | .rxDrSwap p m => .msg p.index (.message m.raw)
  | .rxGetSinkCap p m => .msg p.index (.message m.raw)
  | .rxEmpty p r => .msg p.index r.raw
  | .rxOther p m => .msg p.index (.message m.raw)
  | .vdmDiscoverIdentityReq p m => .vdm p.index m.raw
  | .vdmDiscoverIdentityAck p m => .vdm p.index m.raw
  | .vdmOther p m => .vdm p.index m.raw
  | .txSourceCap p => .procPort .txSourceCap p.index
  | .txRequest p => .procPort .txRequest p.index
  | .txAccept p => .procPort .txAccept p.index
  | .txReject p => .procPort .txReject p.index
  | .txPsRdy p => .procPort .txPsRdy p.index
  | .txSinkCap p => .procPort .txSinkCap p.index
  | .txProbe p => .procPort .txProbe p.index
  | .txIdentityAck p => .procPort .txIdentityAck p.index
  | .txVdmReboot p => .procPort .txVdmReboot p.index
  | .txVdmDfuHold p => .procPort .txVdmDfuHold p.index
  | .txVdmPdReset p => .procPort .txVdmPdReset p.index
  | .txVdmSerialRoute p => .procPort .txVdmSerialRoute p.index
  | .irqHandler => .call .chipIrq
  | .service p => .procPort .service p.index
  | .evVbusGood p => .evt p.index .vbusGood
  | .evHardReset p => .evt p.index .hardReset
  | .evTxSuccess p => .evt p.index .txSuccess
  | .evMsgRx p => .evt p.index .msgRx
  | .rearm p => .procPort .rearm p.index
  | .muxPump p => .procPort .muxPump p.index
  | .pass p b => .byte p.index false b
  | .escArm p => .byte p.index false 0x1F
  | .escLiteral p => .byte p.index true 0x1F
  | .cmdRebootTarget p => .byte p.index true 0x21
  | .cmdSelfReset p => .byte p.index true 0x12
  | .cmdFwUpdate p => .byte p.index true 0x1E
  | .cmdForceDisconnect p => .byte p.index true 0x18
  | .cmdToggleVerbose p => .byte p.index true 0x04
  | .cmdDebugProbe p => .byte p.index true 0x0D
  | .cmdRoute1 p => .byte p.index true 0x31
  | .cmdRoute2 p => .byte p.index true 0x32
  | .cmdHelp p => .byte p.index true 0x3F
  | .cmdDrop p b => .byte p.index true b
  | .breakBegin p h => .call (.breakBegin p.index h)
  | .breakEnd p h => .call (.breakEnd p.index h)
  | .uartRxIrq p b => .call (.uartByte p.index b)
  | .ringPut p b => .procRingPut p.index b
  | .ringGet p => .procPort .ringGet p.index
  | .drainToHost p => .procPort .drainToHost p.index
  | .mainEntry => .procDevice .mainEntry
  | .runPass => .procDevice .runPass
  | .transportService => .procDevice .transportService
  | .idleWait => .procDevice .idleWait
  | .deviceReset c => .call (.deviceReset c)

/-! ## The opcode table (R111) -/

/-- What a row of spec/opcode_table.json says of the input that selects its operation (R111). `byte`: the mode bit, which
stands beside the byte, and the 8-bit match and mask. `event`, `record`, `vdm`: no bits, a named predicate or class, for a
record with the general-knowledge default of its type where one exists (assumption log 34). `input`: no bits, the call of
format CALL and the caller or agent that makes it. `caller`: no bits, the callers of an operation of format PROC. -/
inductive RowSelector
  | byte (esc : Bool) (pattern mask : Byte)
  | event (k : EvKind)
  | record (c : RxClass) (typeDefault : Option Nat)
  | vdm (c : VdmClass)
  | input (call caller : String)
  | caller (callers : String)
deriving DecidableEq, Repr

/-- One row of the opcode table (R111): the mnemonic and the selector. -/
structure OpRow where
  mnemonic : String
  selector : RowSelector
deriving DecidableEq, Repr

/-- The row of an operation (R90, R111): one row per operation, whatever its operands. -/
def opRow : Instr → OpRow
  | .setup _ => ⟨"SETUP", .input "setup(p, binding)" "MAIN_ENTRY"⟩
  | .tick _ => ⟨"TICK", .caller "SERVICE"⟩
  | .pollDisconnected _ => ⟨"POLL_DISCONNECTED", .caller "TICK"⟩
  | .onAttach _ => ⟨"ON_ATTACH", .caller "POLL_DISCONNECTED"⟩
  | .tickVbusOn _ => ⟨"TICK_VBUS_ON", .caller "TICK"⟩
  | .tickReady _ => ⟨"TICK_READY", .caller "TICK"⟩
  | .debounce _ => ⟨"DEBOUNCE", .caller "TICK"⟩
  | .onTxComplete _ => ⟨"ON_TX_COMPLETE", .caller "EV_TX_SUCCESS"⟩
  | .disconnect _ => ⟨"DISCONNECT", .caller "DEBOUNCE, EV_HARD_RESET, EV_VBUS_GOOD (VBUS absent), CMD_FORCE_DISCONNECT"⟩
  | .vbusOff _ => ⟨"VBUS_OFF", .caller "SETUP, DISCONNECT"⟩
  | .onMessage _ _ => ⟨"ON_MESSAGE", .caller "EV_MSG_RX"⟩
  | .rxSourceCap _ _ => ⟨"RX_SOURCE_CAP", .record .sourceCap (some (MsgCodes.default.get .sourceCap))⟩
  | .rxRequest _ _ => ⟨"RX_REQUEST", .record .request (some (MsgCodes.default.get .request))⟩
  | .rxVdm _ _ => ⟨"RX_VDM", .record .vendorDefined (some (MsgCodes.default.get .vendorDefined))⟩
  | .rxPrSwap _ _ => ⟨"RX_PR_SWAP", .record .prSwap (some (MsgCodes.default.get .prSwap))⟩
  | .rxDrSwap _ _ => ⟨"RX_DR_SWAP", .record .drSwap (some (MsgCodes.default.get .drSwap))⟩
  | .rxGetSinkCap _ _ => ⟨"RX_GET_SINK_CAP", .record .getSinkCap (some (MsgCodes.default.get .getSinkCap))⟩
  | .rxEmpty _ _ => ⟨"RX_EMPTY", .record .empty (some (MsgCodes.default.get .goodCrc))⟩
  | .rxOther _ _ => ⟨"RX_OTHER", .record .other none⟩
  | .vdmDiscoverIdentityReq _ _ => ⟨"VDM_DISCOVER_IDENTITY_REQ", .vdm .discoverIdentityReq⟩
  | .vdmDiscoverIdentityAck _ _ => ⟨"VDM_DISCOVER_IDENTITY_ACK", .vdm .discoverIdentityAck⟩
  | .vdmOther _ _ => ⟨"VDM_OTHER", .vdm .other⟩
  | .txSourceCap _ => ⟨"TX_SOURCE_CAP", .caller "EV_VBUS_GOOD, TICK_VBUS_ON"⟩
  | .txRequest _ => ⟨"TX_REQUEST", .caller "RX_SOURCE_CAP"⟩
  | .txAccept _ => ⟨"TX_ACCEPT", .caller "RX_REQUEST"⟩
  | .txReject _ => ⟨"TX_REJECT", .caller "RX_PR_SWAP, RX_DR_SWAP"⟩
  | .txPsRdy _ => ⟨"TX_PS_RDY", .caller "ON_TX_COMPLETE (ps = DFP_ACCEPT)"⟩
  | .txSinkCap _ => ⟨"TX_SINK_CAP", .caller "RX_GET_SINK_CAP"⟩
  | .txProbe _ => ⟨"TX_PROBE", .caller "ON_ATTACH, EV_VBUS_GOOD, TICK_VBUS_ON, CMD_DEBUG_PROBE"⟩
  | .txIdentityAck _ => ⟨"TX_IDENTITY_ACK", .caller "VDM_DISCOVER_IDENTITY_REQ"⟩
  | .txVdmReboot _ => ⟨"TX_VDM_REBOOT", .caller "CMD_REBOOT_TARGET"⟩
  | .txVdmDfuHold _ => ⟨"TX_VDM_DFU_HOLD", .caller "none inside the block"⟩
  | .txVdmPdReset _ => ⟨"TX_VDM_PD_RESET", .caller "CMD_ROUTE_1, CMD_ROUTE_2"⟩
  | .txVdmSerialRoute _ => ⟨"TX_VDM_SERIAL_ROUTE", .caller "ON_TX_COMPLETE (ps = DFP_VBUS_ON)"⟩
  | .irqHandler => ⟨"IRQ_HANDLER", .input "chip interrupt line of port p asserted while irq_en[p]" "IRQ_CHIP"⟩
  | .service _ => ⟨"SERVICE", .caller "RUN_PASS"⟩
  | .evVbusGood _ => ⟨"EV_VBUS_GOOD", .event .vbusGood⟩
  | .evHardReset _ => ⟨"EV_HARD_RESET", .event .hardReset⟩
  | .evTxSuccess _ => ⟨"EV_TX_SUCCESS", .event .txSuccess⟩
  | .evMsgRx _ => ⟨"EV_MSG_RX", .event .msgRx⟩
  | .rearm _ => ⟨"REARM", .caller "SERVICE (last step)"⟩
  | .muxPump _ => ⟨"MUX_PUMP", .caller "RUN_PASS"⟩
  | .pass _ _ => ⟨"PASS", .byte false 0x00 0x00⟩
  | .escArm _ => ⟨"ESC_ARM", .byte false 0x1F 0xFF⟩
  | .escLiteral _ => ⟨"ESC_LITERAL", .byte true 0x1F 0xFF⟩
  | .cmdRebootTarget _ => ⟨"CMD_REBOOT_TARGET", .byte true 0x21 0xFF⟩
  | .cmdSelfReset _ => ⟨"CMD_SELF_RESET", .byte true 0x12 0xFF⟩
  | .cmdFwUpdate _ => ⟨"CMD_FW_UPDATE", .byte true 0x1E 0xFF⟩
  | .cmdForceDisconnect _ => ⟨"CMD_FORCE_DISCONNECT", .byte true 0x18 0xFF⟩
  | .cmdToggleVerbose _ => ⟨"CMD_TOGGLE_VERBOSE", .byte true 0x04 0xFF⟩
  | .cmdDebugProbe _ => ⟨"CMD_DEBUG_PROBE", .byte true 0x0D 0xFF⟩
  | .cmdRoute1 _ => ⟨"CMD_ROUTE_1", .byte true 0x31 0xFF⟩
  | .cmdRoute2 _ => ⟨"CMD_ROUTE_2", .byte true 0x32 0xFF⟩
  | .cmdHelp _ => ⟨"CMD_HELP", .byte true 0x3F 0xFF⟩
  | .cmdDrop _ _ => ⟨"CMD_DROP", .byte true 0x00 0x00⟩
  | .breakBegin _ _ => ⟨"BREAK_BEGIN", .input "breakBegin(p, hint)" "host transport"⟩
  | .breakEnd _ _ => ⟨"BREAK_END", .input "breakEnd(p, hint)" "host transport"⟩
  | .uartRxIrq _ _ => ⟨"UART_RX_IRQ", .input "UART byte b received on port p" "IRQ_UART[p]"⟩
  | .ringPut _ _ => ⟨"RING_PUT", .caller "UART_RX_IRQ"⟩
  | .ringGet _ => ⟨"RING_GET", .caller "DRAIN_TO_HOST"⟩
  | .drainToHost _ => ⟨"DRAIN_TO_HOST", .caller "MUX_PUMP"⟩
  | .mainEntry => ⟨"MAIN_ENTRY", .caller "DEVICE_RESET (program start)"⟩
  | .runPass => ⟨"RUN_PASS", .caller "MAIN_ENTRY (forever)"⟩
  | .transportService => ⟨"TRANSPORT_SERVICE", .caller "RUN_PASS"⟩
  | .idleWait => ⟨"IDLE_WAIT", .caller "RUN_PASS"⟩
  | .deviceReset _ => ⟨"DEVICE_RESET", .input "power-on, or watchdog expiry after CMD_SELF_RESET" "ENV"⟩

/-- Some message, for an operation with a message operand in the list below. -/
def repMsg : Msg := ⟨0, .sink, .ufp, 0, Objs.clip []⟩

/-- The opcode table (R111): the 66 rows in its order, each named by an operation of it. -/
def opcodeTable : List OpRow :=
  ([.setup .p0, .tick .p0, .pollDisconnected .p0, .onAttach .p0, .tickVbusOn .p0, .tickReady .p0, .debounce .p0,
    .onTxComplete .p0, .disconnect .p0, .vbusOff .p0, .onMessage .p0 .garbage, .rxSourceCap .p0 repMsg,
    .rxRequest .p0 repMsg, .rxVdm .p0 repMsg, .rxPrSwap .p0 repMsg, .rxDrSwap .p0 repMsg, .rxGetSinkCap .p0 repMsg,
    .rxEmpty .p0 .garbage, .rxOther .p0 repMsg, .vdmDiscoverIdentityReq .p0 repMsg,
    .vdmDiscoverIdentityAck .p0 repMsg, .vdmOther .p0 repMsg, .txSourceCap .p0, .txRequest .p0, .txAccept .p0,
    .txReject .p0, .txPsRdy .p0, .txSinkCap .p0, .txProbe .p0, .txIdentityAck .p0, .txVdmReboot .p0,
    .txVdmDfuHold .p0, .txVdmPdReset .p0, .txVdmSerialRoute .p0, .irqHandler, .service .p0, .evVbusGood .p0,
    .evHardReset .p0, .evTxSuccess .p0, .evMsgRx .p0, .rearm .p0, .muxPump .p0, .pass .p0 0x41, .escArm .p0,
    .escLiteral .p0, .cmdRebootTarget .p0, .cmdSelfReset .p0, .cmdFwUpdate .p0, .cmdForceDisconnect .p0,
    .cmdToggleVerbose .p0, .cmdDebugProbe .p0, .cmdRoute1 .p0, .cmdRoute2 .p0, .cmdHelp .p0, .cmdDrop .p0 0x41,
    .breakBegin .p0 0, .breakEnd .p0 0, .uartRxIrq .p0 0x41, .ringPut .p0 0x41, .ringGet .p0, .drainToHost .p0,
    .mainEntry, .runPass, .transportService, .idleWait, .deviceReset .powerOn] : List Instr).map opRow

/-- A BYTE row matches a byte in a mode: the mode is the row's, and the byte under the mask is the pattern (R111). -/
def RowSelector.matchesByte (esc : Bool) (b : Byte) : RowSelector → Bool
  | .byte e m k => e == esc && b &&& k == m
  | _ => false

/-- A row with mask 0x00 is the default of its mode (R111). -/
def RowSelector.isDefault : RowSelector → Bool
  | .byte _ _ k => k == 0
  | _ => false

/-- The row that a byte selects (R111): among the rows that match it in its mode, one with a mask other than 0x00 comes
before the default of the mode. `decodeByte` reads exactly these rows (`byteRow_decodeByte` in Laws/Decode.lean). -/
def byteRow (esc : Bool) (b : Byte) : Option OpRow :=
  let rs := opcodeTable.filter fun r => r.selector.matchesByte esc b
  (rs.find? fun r => !r.selector.isDefault).or rs.head?

/-! ## Words of the opcode table

Only the BYTE rows of spec/opcode_table.json have bits, and the mode bit `esc` is not among them (R111). A word of
at most one byte is therefore read in the mode in which it is a command, 0x1F and every other byte in default mode;
a word of two bytes whose first is 0x1F is an escape unit (R94, R109) and its second byte is read in armed mode.

DESIGN CHOICE (assumption log 21): the spec gives byte sequences (`1F 3F`) and no words. That the low byte of the number is
the first byte of the sequence, that a longer word whose first byte is not 0x1F is that byte alone, its further bytes
dropped, and that an escape unit is its first two bytes, are the model's. -/

/-- The first byte of a word: the low one (DESIGN CHOICE, assumption log 21). -/
def wordByte0 (w : Nat) : Byte := BitVec.ofNat 8 w

/-- The second byte of a word: the next above the low one (DESIGN CHOICE, assumption log 21). -/
def wordByte1 (w : Nat) : Byte := BitVec.ofNat 8 (w / 256)

/-- Whether a byte is one of the command bytes of R93 other than 0x1F. -/
def isCommandByte (b : Byte) : Bool :=
  [0x21, 0x12, 0x1E, 0x18, 0x04, 0x0D, 0x31, 0x32, 0x3F].contains b

/-- The mode and the byte a word stands for: the second byte of an escape unit in armed mode, otherwise the first byte alone,
with what follows it dropped. The spec packs no bytes into words: DESIGN CHOICE (R109, assumption log 21). -/
def wordUnit (nbits w : Nat) : Bool × Byte :=
  if 8 < nbits ∧ wordByte0 w = Config.esc then (true, wordByte1 w)
  else (isCommandByte (wordByte0 w), wordByte0 w)

/-- The operation the decoder reads from a word of a BYTE row, on port 0 (R111). -/
def decodeTableWord (nbits w : Nat) : Option Instr :=
  let u := wordUnit nbits w
  some ((decodeByte u.1 u.2).instr .p0)

end Sys2Proof
end

