-- ==== Sys2Proof/Machine/State.lean ====
section
/-! DEFINITION. The state of the PD core as plain data: the port records, the control outputs, the ring, the globals
(spec 10_state.md), what the environment owns at the boundary (10 R48, 20 R60), the environment's schedule
(44 R229), the outward trace, and the state right after a device reset (70 R280, R281). -/

namespace Sys2Proof.Machine

/-- Bytes by address in canonical form: addresses strictly rising, no entry 0x00 (assumption log 20). -/
abbrev Memory := List Host.Cell

/-! ## The block's own state -/

/-- The MAIN-owned fields of `P[p]` (R20 to R29). `setUp` is the model's own: `SETUP(p)` has returned since the device
reset (R281). -/
structure PortRegs where
  present : Bool
  ps : PolicyState
  pol : Polarity
  route : Route
  deb : Nat
  sct : Nat
  esc : Bool
  verbose : Bool
  setUp : Bool
deriving DecidableEq, Repr

/-- The circular passthrough buffer: `RING_CAP + 1` slots, read and write cursor (R32, R209). -/
structure Ring where
  buf : List Byte
  r : Nat
  w : Nat
deriving DecidableEq, Repr

/-- The fields a handler writes too: `P[p].pending`, `irq_en[p]`, `ring[p]` (R30 to R32, R256). -/
structure Shared where
  pending : Bool
  irqEn : Bool
  ring : Ring
deriving DecidableEq, Repr

/-- `Out[p].vbus` (R34). -/
inductive VbusOut
  | on
  | offDriven
  | released
deriving DecidableEq, Repr

/-- `Out[p].cc_role` (R37). Whether the two are the same chip setting is not known (93 U14). -/
inductive CcRole
  | srcSeek
  | srcPlain
deriving DecidableEq, Repr

/-- `Out[p].chip_pol` (R38). -/
inductive ChipPol
  | cc1
  | cc2
  | unset
deriving DecidableEq, Repr

/-- `Out[p].hdr_role` (R39). -/
inductive HdrRole
  | source
  | unset
deriving DecidableEq, Repr

/-- `Out[p].src_sel` (R41). -/
inductive SrcSel
  | usbPins
  | sbuPins
deriving DecidableEq, Repr

/-- The control outputs `Out[p]` (R33 to R44). -/
structure Outputs where
  vbus : VbusOut
  vconn : Bool
  rxEn : Bool
  ccRole : CcRole
  chipPol : ChipPol
  hdrRole : HdrRole
  laneSwap : Bool
  srcSel : SrcSel
  indicator : Level
  uartBreak : Bool
  attachIrqArmed : Bool
deriving DecidableEq, Repr

/-- One command to an output, as `Out[p].g <- v` (R62). -/
inductive OutWrite
  | vbus (v : VbusOut)
  | vconn (v : Bool)
  | rxEn (v : Bool)
  | ccRole (v : CcRole)
  | chipPol (v : ChipPol)
  | hdrRole (v : HdrRole)
  | laneSwap (v : Bool)
  | srcSel (v : SrcSel)
  | indicator (v : Level)
  | uartBreak (v : Bool)
  | attachIrqArmed (v : Bool)
deriving DecidableEq, Repr

/-- `halt` (R45). -/
inductive Halt
  | running
  | fwUpdate
deriving DecidableEq, Repr

/-- The run loop position of `MAIN` (R46(b), R220): what it does next. -/
inductive MainPos
  | entry
  | turn (p : Port)
  | pump (p : Port)
  | transport
  | idleTest
  | idle
deriving DecidableEq, Repr

/-! ## The environment's side of the boundary -/

/-- What the environment owns at the boundary of one port (R48, R60 to R69, R84): the interrupt line, the CC, VBUS
and bus-line levels, the transceiver registers, the receive queue, the host channel with its connectivity and its send
back-pressure (`takes`: the host accepts what is sent to it); and what the chip's queue and status hold after its next
PD reset (R285). -/
structure EnvPort where
  line : Bool
  cc1 : Nat
  cc2 : Nat
  vbusPresent : Bool
  busHeldLow : Bool
  tcpc : Memory
  rx : List RxRecord
  afterResetRx : List RxRecord
  afterResetStatus : StatusBytes
  host : List Byte
  connected : Bool
  takes : Bool
deriving DecidableEq, Repr

/-- A break call of the host transport (R71, R104): begin or end, with its hint. -/
structure BreakCall where
  port : Port
  begins : Bool
  hint : Nat
deriving DecidableEq, Repr

/-- The environment's moves (R229). -/
inductive EnvMove
  | line (p : Port) (active : Bool)
  | latch (p : Port) (s : StatusBytes)
  | cc (p : Port) (cc1 cc2 : Nat)
  | vbus (p : Port) (present : Bool)
  | busLow (p : Port) (low : Bool)
  | chipReg (p : Port) (addr : Nat) (v : Byte)
  | rxMsg (p : Port) (r : RxRecord)
  | afterReset (p : Port) (rx : List RxRecord) (s : StatusBytes)
  | hostBytes (p : Port) (bs : List Byte)
  | breakCall (c : BreakCall)
  | uartByte (p : Port) (b : Byte)
  | connect (p : Port) (connected : Bool)
  | takes (p : Port) (takes : Bool)
  | reset (c : ResetCause)
deriving DecidableEq, Repr

/-! ## The outward trace -/

/-- The causes of a hard failure (R244). -/
inductive HardCause
  | hardReset
  | vbusLost
deriving DecidableEq, Repr

/-- The sites of transient noise (R242). -/
inductive NoiseSite
  | falseAttach
  | lowReading
  | emptyRx
deriving DecidableEq, Repr

/-- The two operator-fatal commands (R245). -/
inductive FatalCommand
  | selfReset
  | fwUpdate
deriving DecidableEq, Repr

/-- The five error conditions (R240) with what each records. -/
inductive Condition
  | absence (p : Port) (c : AbsenceCause)
  | transientNoise (p : Port) (n : NoiseSite)
  | protocolViolationMsg (p : Port) (m : Msg)
  | protocolViolationVdm (p : Port) (m : Msg)
  | hardFailure (p : Port) (c : HardCause)
  | operatorFatal (c : FatalCommand)
deriving DecidableEq, Repr

/-- The two blocking delays of the core (R257, R300): the poll sleep with its length in milliseconds (R8, R122), and the
settling delay, whose length is not in the source. -/
inductive DelayKind
  | pollSleep (ms : Nat)
  | vbusSettle
deriving DecidableEq, Repr

/-- One thing that crossed the boundary outward, or a condition recorded (R72, R240, R262). A log line is recorded by
its kind and datum (R263, R267) when its last byte was accepted; a line whose channel was disconnected, or whose operation
was abandoned, in the middle of it is recorded with the number of its bytes that were accepted (R67, R80). A host byte is
recorded only if the channel accepted it (R67). -/
inductive Event
  | out (p : Port) (w : OutWrite)
  | tcpcReset (p : Port)
  | tx (p : Port) (k : TxKind) (m : Msg)
  | uart (p : Port) (b : Byte)
  | host (p : Port) (b : Byte)
  | log (p : Port) (l : LogBody)
  | logCut (p : Port) (l : LogBody) (accepted : Nat)
  | delay (p : Port) (d : DelayKind)
  | raised (c : Condition)
deriving DecidableEq, Repr

/-! ## The whole state -/

/-- Everything of one port. -/
structure PortState where
  regs : PortRegs
  out : Outputs
  shared : Shared
  env : EnvPort
deriving DecidableEq, Repr

/-- The state of the machine. `cfg` holds the parameters of R9 and never changes; `wake`, `resetReq`, `stalled`, `ret`,
`freeCtr`, `trace` and `sched` are the model's own (INVENTORY.md, State). -/
structure State where
  cfg : Params
  port0 : PortState
  port1 : PortState
  wdogArmed : Bool
  halt : Halt
  pos : MainPos
  calls : List BreakCall
  sched : List (List EnvMove)
  wake : Bool
  resetReq : Option ResetCause
  stalled : Option Port
  ret : Option Byte
  freeCtr : Nat
  trace : List Event
deriving DecidableEq, Repr

/-- Why the machine is stuck. The spec gives the block no trap: no encoding traps (R106), no condition leads to a handler
(R246). The one way it comes to stand still in the middle of an operation is a blocking call that never returns. -/
inductive Fault
  /-- `MAIN` is inside a `HostSend` on the connected channel of a port whose host never takes what is sent, in all that
  the environment's schedule still holds (R67, R226(c), R295, 93 U10: `stuck`). Raised by `exec` of every operation that
  sends, through `stallOutcome`. Safe: the model says nothing of a stuck block. -/
  | hostSendStalled (p : Port)
deriving DecidableEq, Repr

/-- Why an operation is refused. -/
inductive Refusal
  /-- An operation without a meaning, by its mnemonic. Raised by `exec` for an arm without a meaning; there is none.
  Safe. -/
  | notModelled (mnemonic : String)
  /-- An operation other than `SETUP` on a port whose `SETUP` has not returned (R281, 93 U1: `refuse`). Raised by
  `onPort` and `execRunPass`. Safe. -/
  | notSetUp
  /-- `setup` called twice for a port (93 U17: `refuse`). Raised by `execSetup` and `execMainEntry`. Safe. -/
  | setUpTwice
deriving DecidableEq, Repr

/-! ## Access by port -/

/-- The record of port `p`. -/
def State.port (s : State) : Port → PortState
  | .p0 => s.port0
  | .p1 => s.port1

/-- Replace the record of port `p`. -/
def State.setPort (s : State) : Port → PortState → State
  | .p0, x => { s with port0 := x }
  | .p1, x => { s with port1 := x }

/-- The MAIN-owned fields of `P[p]`. -/
def State.regs (s : State) (p : Port) : PortRegs := (s.port p).regs
/-- `Out[p]`. -/
def State.out (s : State) (p : Port) : Outputs := (s.port p).out
/-- The shared fields of port `p`. -/
def State.shared (s : State) (p : Port) : Shared := (s.port p).shared
/-- The environment's side of port `p`. -/
def State.env (s : State) (p : Port) : EnvPort := (s.port p).env

/-- Update the MAIN-owned fields of `P[p]`. -/
def State.updRegs (s : State) (p : Port) (f : PortRegs → PortRegs) : State :=
  s.setPort p { s.port p with regs := f (s.regs p) }
/-- Update `Out[p]`. -/
def State.updOut (s : State) (p : Port) (f : Outputs → Outputs) : State :=
  s.setPort p { s.port p with out := f (s.out p) }
/-- Update the shared fields of port `p`. -/
def State.updShared (s : State) (p : Port) (f : Shared → Shared) : State :=
  s.setPort p { s.port p with shared := f (s.shared p) }
/-- Update the environment's side of port `p`. -/
def State.updEnv (s : State) (p : Port) (f : EnvPort → EnvPort) : State :=
  s.setPort p { s.port p with env := f (s.env p) }

/-! ## Replacing a global field -/

/-- Replace the field `wdogArmed`. -/
def State.setWdogArmed (s : State) (x : Bool) : State := { s with wdogArmed := x }

/-- Replace the field `halt`. -/
def State.setHalt (s : State) (x : Halt) : State := { s with halt := x }

/-- Replace the field `pos`. -/
def State.setPos (s : State) (x : MainPos) : State := { s with pos := x }

/-- Replace the field `calls`. -/
def State.setCalls (s : State) (x : List BreakCall) : State := { s with calls := x }

/-- Replace the field `sched`. -/
def State.setSched (s : State) (x : List (List EnvMove)) : State := { s with sched := x }

/-- Replace the field `wake`. -/
def State.setWake (s : State) (x : Bool) : State := { s with wake := x }

/-- Replace the field `resetReq`. -/
def State.setResetReq (s : State) (x : Option ResetCause) : State := { s with resetReq := x }

/-- Replace the field `stalled`. -/
def State.setStalled (s : State) (x : Option Port) : State := { s with stalled := x }

/-- Replace the field `ret`. -/
def State.setRet (s : State) (x : Option Byte) : State := { s with ret := x }

/-- Replace the field `freeCtr`. -/
def State.setFreeCtr (s : State) (x : Nat) : State := { s with freeCtr := x }

/-- Replace the field `trace`. -/
def State.setTrace (s : State) (x : List Event) : State := { s with trace := x }

/-- A live port: set up and present (R29, R220). -/
def State.live (s : State) (p : Port) : Bool := (s.regs p).setUp && (s.regs p).present

/-! ## Reset -/

/-- `P[p]` after a device reset, before `SETUP` (R281: unspecified). DESIGN CHOICE, unsafe: assumption log 3. -/
def PortRegs.reset : PortRegs where
  present := false
  ps := .disconnected
  pol := .cc1
  route := .primaryUsb
  deb := 0
  sct := 0
  esc := false
  verbose := false
  setUp := false

/-- `Out[p]` after a device reset, before `SETUP` (R281: unspecified). DESIGN CHOICE, unsafe: assumption log 3. -/
def Outputs.reset : Outputs where
  vbus := .released
  vconn := false
  rxEn := false
  ccRole := .srcSeek
  chipPol := .unset
  hdrRole := .unset
  laneSwap := false
  srcSel := .usbPins
  indicator := .deasserted
  uartBreak := false
  attachIrqArmed := false

/-- The shared fields after a device reset: no interrupt of the block is enabled (R281), nothing pending, ring empty
and, in the slots, which hold no data, the byte 0x00 (DESIGN CHOICE, unsafe: assumption log 3). -/
def Shared.reset (slots : Nat) : Shared where
  pending := false
  irqEn := false
  ring := { buf := List.replicate slots 0, r := 0, w := 0 }

/-- The environment at `State.reset`: nothing asserted, nothing latched, nothing queued (93 U4: any value). DESIGN
CHOICE, unsafe: assumption log 4. -/
def EnvPort.reset : EnvPort where
  line := false
  cc1 := 0
  cc2 := 0
  vbusPresent := false
  busHeldLow := false
  tcpc := []
  rx := []
  afterResetRx := []
  afterResetStatus := ⟨0, 0, 0⟩
  host := []
  connected := true
  takes := true

/-- A port right after a device reset. -/
def PortState.reset (slots : Nat) : PortState where
  regs := PortRegs.reset
  out := Outputs.reset
  shared := Shared.reset slots
  env := EnvPort.reset

/-- The machine right after a device reset: `MAIN_ENTRY` is about to run (R228, R280), no interrupt is enabled, the
watchdog is not armed and the block is running (R281). -/
def State.reset : State where
  cfg := Params.default
  port0 := PortState.reset 17
  port1 := PortState.reset 17
  wdogArmed := false
  halt := .running
  pos := .entry
  calls := []
  sched := []
  wake := false
  resetReq := none
  stalled := none
  ret := none
  freeCtr := 0
  trace := []

end Sys2Proof.Machine
end

