-- ==== Sys2Proof/Machine/Operands.lean ====
section
/-! DEFINITION. The operand forms of the operations: CC level predicates (40_policy_engine.md R135, R136), routing
(41 R165, 30 R103), SET ACTION payloads (30 R102), port tags (60 R262), identity test (40 R121). -/

namespace Sys2Proof.Machine

/-- `Attach(c)` (R135). -/
def attachLevel (c : Params) (l : Nat) : Bool := decide (c.attachThreshold ≤ l)

/-- `AnyAttach(cc1, cc2)` (R135). -/
def anyAttach (c : Params) (cc : Nat × Nat) : Bool := attachLevel c cc.1 || attachLevel c cc.2

/-- `BothBelow(cc1, cc2)` (R135). -/
def bothBelow (c : Params) (cc : Nat × Nat) : Bool := !anyAttach c cc

/-- `SelectPolarity(cc1, cc2)` (R136): the higher line, a tie is line 1. -/
def selectPolarity (cc : Nat × Nat) : Polarity := if cc.2 > cc.1 then .cc2 else .cc1

/-- `WantVconn(cc1, cc2)` (R136): both lines non-zero, not the attach threshold. -/
def wantVconn (cc : Nat × Nat) : Bool := cc.1 != 0 && cc.2 != 0

/-- The polarity as the transceiver is told it (R38). -/
def chipPolOf : Polarity → ChipPol
  | .cc1 => .cc1
  | .cc2 => .cc2

/-- `RouteOutputs(route, pol)`, lane swap (R165). -/
def routeLaneSwap (r : Route) (p : Polarity) : Bool := r == .sbu && p == .cc2

/-- `RouteOutputs(route, pol)`, source select (R165). -/
def routeSrcSel (r : Route) : SrcSel := if r = .sbu then .sbuPins else .usbPins

/-- `VDM_ACTION_OBJS(action, route)` (R102). -/
def actionObjs (a : ActionObjs) : VdmAction → Objs
  | .reboot => a.reboot
  | .dfuHold => a.dfuHold
  | .pdReset => a.pdReset
  | .serialRoute .primaryUsb => a.routePrimary
  | .serialRoute .altUsb => a.routeAlt
  | .serialRoute .sbu => a.routeSbu

/-- `PORT_TAG(p)` (R9, R262). -/
def portTag (c : Params) : Port → Byte
  | .p0 => c.portTag0
  | .p1 => c.portTag1

/-- The number of ring slots, `RING_CAP + 1` (R32, 90 C3). -/
def ringSlots (c : Params) : Nat := c.ringCap + 1

/-- The identity value passes when the mask bit is set (R121). -/
def idValid (c : Params) (id : Byte) : Bool := id &&& c.idValidMask != 0

/-- The class of the identity reply under the model's own test (R101, R157): its first object is a DISCOVER_IDENTITY ack and
no request. -/
def identityIsAck (c : Params) : Bool :=
  match c.identityObjs.val with
  | [] => false
  | o :: _ => matchesAny c.discIdAck o && !matchesAny c.discIdReq o

/-- The two DISCOVER_IDENTITY tests exclude each other (R101): every pattern of one differs from every pattern of the other
in a bit that both look at. -/
def vdmTestsExclude (c : Params) : Bool :=
  c.discIdReq.all fun q => c.discIdAck.all fun r => q.mask &&& r.mask &&& (q.value ^^^ r.value) != 0

/-- The constraints of R9 on the open parameters that a value of `Params` could break: the thresholds, the ring, the
one-bit identity mask, distinct status addresses, the lengths of the fixed payloads, the ack header, the two VDM tests
(R101), the SET ACTION lists (R102), distinct port tags, and the message types as USB-PD has them (R99). -/
def paramsOk (c : Params) : Bool :=
  decide (1 ≤ c.attachThreshold) && decide (c.attachThreshold ≤ c.ccMax) && decide (1 ≤ c.ringCap) &&
    (List.range 8).any (fun i => c.idValidMask == BitVec.ofNat 8 (2 ^ i)) &&
    decide (c.intStatusAddrA ≠ c.intStatusAddrB ∧ c.intStatusAddrA ≠ c.intStatusAddrC ∧
      c.intStatusAddrB ≠ c.intStatusAddrC) &&
    decide (c.srcCapObjs.val.length = 1) && decide (c.requestObjs.val.length = 1) &&
    decide (1 ≤ c.sinkCapObjs.val.length) && identityIsAck c && vdmTestsExclude c && c.actions.ok && c.portTag0 != c.portTag1 &&
    decide (c.msgCodes = MsgCodes.default)

/-- Log kinds of class `VERBOSE` (R260, R267). -/
def verboseClass : LogBody → Bool
  | .absent _ | .unhandledMsg _ | .unhandledVdm _ | .help _ => false
  | .vdmAck _ | .diag _ => true

/-- The transport boundary's translation of a bare newline into newline and carriage return (R107, R262). -/
def translateNewlines : List Byte → List Byte
  | [] => []
  | b :: bs => if b = 0x0A then 0x0A :: 0x0D :: translateNewlines bs else b :: translateNewlines bs

/-- The bytes that the block sends for one log line of port `p`: tag, text, newline (R107, R262). The text is free
(93 U12), but a `DIAG` line is its own text. -/
def sentLine (c : Params) (p : Port) (l : LogBody) : List Byte :=
  let text := match l with
    | .diag t => t
    | _ => Config.logText l
  portTag c p :: (text ++ [0x0A])

/-- The bytes of one log line of port `p` on the host channel, translated at the transport boundary (R107, R262). -/
def hostLine (c : Params) (p : Port) (l : LogBody) : List Byte := translateNewlines (sentLine c p l)

/-- How many bytes `HostSend` has to get accepted for an event (R67, R80): one for a device byte, and for a log line the
bytes the block sends, before the translation. That a newline and its carriage return are accepted together is the model's
choice (assumption log 39). -/
def sendLength (c : Params) : Event → Nat
  | .host _ _ => 1
  | .log p l => (sentLine c p l).length
  | _ => 0

/-- What an event puts on the host channel of port `p` (R213): a device byte verbatim, a log line, or, of a line that was
cut, the bytes that were accepted of those sent, translated (assumption log 39). -/
def eventHostBytes (c : Params) (p : Port) : Event → List Byte
  | .host q b => if q = p then [b] else []
  | .log q l => if q = p then hostLine c p l else []
  | .logCut q l n => if q = p then translateNewlines ((sentLine c p l).take n) else []
  | _ => []

/-- The byte stream of the host channel of port `p`, oldest first (R67, R213). -/
def hostStream (c : Params) (p : Port) (t : List Event) : List Byte := t.flatMap (eventHostBytes c p)

/-- The byte stream of the UART of port `p` toward the device, oldest first (R68, R213). -/
def uartStream (p : Port) (t : List Event) : List Byte :=
  t.filterMap fun e => match e with
    | .uart q b => if q = p then some b else none
    | _ => none

/-- The device bytes that the host channel of port `p` accepted, oldest first (R211, R213). -/
def deviceStream (p : Port) (t : List Event) : List Byte :=
  t.filterMap fun e => match e with
    | .host q b => if q = p then some b else none
    | _ => none

/-- An event that a claim may count on: every event but the optional log lines of class `VERBOSE` (R267). -/
def Event.named : Event → Bool
  | .log _ l | .logCut _ l _ => !verboseClass l
  | _ => true

/-- The trace without the optional log lines (R267). -/
def namedTrace (t : List Event) : List Event := t.filter Event.named

end Sys2Proof.Machine
end

