-- ==== Sys2Proof/Machine/Flags.lean ====
section
/-! DEFINITION. The flag operations: pending set and test-and-clear (20_memory.md R77), the line mask (42 R171, R177),
the escape mode (43 R191, R205), the verbosity flag (43 R199), the halt (44 R226), and the interrupt test of
42 R171. -/

namespace Sys2Proof.Machine

/-- Whether the block is running: in `FW_UPDATE` no agent takes a step (R226). -/
def running (s : State) : Bool := s.halt == .running

/-- `P[p].pending <- true`, one indivisible step (R77). -/
def setPending (p : Port) (s : State) : State := s.updShared p fun x => { x with pending := true }

/-- The clear of the atomic test-and-clear of `RUN_PASS` (R77, R220, 90 C9). -/
def clearPending (p : Port) (s : State) : State := s.updShared p fun x => { x with pending := false }

/-- `irq_en[p] <- false` (R171). -/
def maskLine (p : Port) (s : State) : State := s.updShared p fun x => { x with irqEn := false }

/-- `irq_en[p] <- true` (R177, R121). -/
def armLine (p : Port) (s : State) : State := s.updShared p fun x => { x with irqEn := true }

/-- `P[p].esc <- true` (R193). -/
def armEscape (p : Port) (s : State) : State := s.updRegs p fun r => { r with esc := true }

/-- `P[p].esc <- false`, the disarming that every armed-mode operation starts with (R190, R205). -/
def disarmEscape (p : Port) (s : State) : State := s.updRegs p fun r => { r with esc := false }

/-- `P[p].verbose <- not P[p].verbose` (R199). -/
def toggleVerbose (p : Port) (s : State) : State := s.updRegs p fun r => { r with verbose := !r.verbose }

/-- The interrupt request of port `p`: running, `SETUP(p)` returned, present, armed and the line active (R170, R171, R226,
R281). -/
def irqReady (s : State) (p : Port) : Bool :=
  running s && s.live p && (s.shared p).irqEn && (s.env p).line

/-- Whether some live port is pending (R220, R222). -/
def anyPending (s : State) : Bool := Port.all.any fun p => s.live p && (s.shared p).pending

end Sys2Proof.Machine
end

