-- ==== Sys2Proof/Machine/Memory.lean ====
section
/-! DEFINITION. The transceiver register space `TCPC[p]` (20_memory.md R61): one-byte and two-byte reads and writes
of a memory in canonical form. -/

namespace Sys2Proof.Machine

/-- What an unlisted register reads as. DESIGN CHOICE, unsafe: assumption log 20. -/
def unlistedReg : Byte := 0

/-- `readReg8`: the byte at an address (R61). -/
def readReg : Memory → Nat → Byte
  | [], _ => unlistedReg
  | (b, v) :: m, a => if a = b then v else readReg m a

/-- A cell put before a memory, unless it holds what an unlisted address reads as. -/
def consCell (a : Nat) (v : Byte) (m : Memory) : Memory := if v = unlistedReg then m else (a, v) :: m

/-- `writeReg8`: the memory with the byte at an address replaced, in canonical form (R61). -/
def writeReg : Memory → Nat → Byte → Memory
  | [], a, v => consCell a v []
  | (b, w) :: m, a, v =>
    if a < b then consCell a v ((b, w) :: m)
    else if a = b then consCell a v m
    else (b, w) :: writeReg m a v

/-- `readReg16`: the byte at the address and the next one, in the order of the driver (R61, R78). Which order, and that
the two bytes are the registers at the address and the next, is the model's (assumption log 40). No rule uses it (R61). -/
def readReg16 (m : Memory) (a : Nat) : BitVec 16 :=
  if Config.reg16HighFirst then readReg m a ++ readReg m (a + 1) else readReg m (a + 1) ++ readReg m a

/-- `writeReg16`: both bytes of a value, where `readReg16` reads them (R61). No rule uses it. -/
def writeReg16 (m : Memory) (a : Nat) (v : BitVec 16) : Memory :=
  let hi : Byte := v.extractLsb' 8 8
  let lo : Byte := v.extractLsb' 0 8
  if Config.reg16HighFirst then writeReg (writeReg m a hi) (a + 1) lo else writeReg (writeReg m a lo) (a + 1) hi

/-- `MemRead(TCPC[p]:a, n)`: `readReg8` for `n = 1`, `readReg16` for `n = 2` (R12, R61); no other width exists. It only
returns a value: R80 assumes no side effect for `ID_REG_ADDR` and is silent on every other register, where none is the
model's choice (assumption log 40). -/
def memRead (m : Memory) (a : Nat) : Nat → Option Nat
  | 1 => some (readReg m a).toNat
  | 2 => some (readReg16 m a).toNat
  | _ => none

/-- `MemWrite(TCPC[p]:a, n, v)`: `writeReg8` for `n = 1`, `writeReg16` for `n = 2` (R12, R61), the value cut to the width. -/
def memWrite (m : Memory) (a : Nat) : Nat → Nat → Option Memory
  | 1, v => some (writeReg m a (BitVec.ofNat 8 v))
  | 2, v => some (writeReg16 m a (BitVec.ofNat 16 v))
  | _, _ => none

/-- The canonical form: addresses strictly rising, no entry equal to what an unlisted address reads as. -/
def Memory.wf (m : Memory) : Bool :=
  decide (m.Pairwise fun x y => x.1 < y.1) && m.all fun c => c.2 != unlistedReg

end Sys2Proof.Machine
end

