-- ==== Sys2Proof/Machine/Ring.lean ====
section
/-! DEFINITION. The circular passthrough buffer (43_multiplexer.md R209, R210, R212) with `S` slots. -/

namespace Sys2Proof.Machine

/-- The next cursor, modulo the number of slots (R212). -/
def nextSlot (S i : Nat) : Nat := (i + 1) % S

/-- An empty ring of `S` slots (R32: `r = w = 0`). The byte 0x00 in every slot is the model's choice, of slots that hold no
data (DESIGN CHOICE: assumption log 3). -/
def emptyRing (S : Nat) : Ring := { buf := List.replicate S 0, r := 0, w := 0 }

/-- `RING_PUT` (R209): store at the write cursor and advance it; if the cursors meet, the oldest byte is dropped. -/
def ringPush (S : Nat) (b : Byte) (x : Ring) : Ring :=
  let w := nextSlot S x.w
  { buf := x.buf.set x.w b
    w := w
    r := if w = x.r then nextSlot S x.r else x.r }

/-- `RING_GET` (R210): the oldest byte, or `none` and no change when the cursors are equal. -/
def ringPop (S : Nat) (x : Ring) : Option Byte × Ring :=
  if x.r = x.w then (none, x) else (some (x.buf.getD x.r 0), { x with r := nextSlot S x.r })

/-- The number of bytes held, `(w - r) mod S` (R212). -/
def ringCount (S : Nat) (x : Ring) : Nat := (x.w + S - x.r) % S

/-- The bytes held, oldest first: the abstract value of R32. -/
def ringContents (S : Nat) (x : Ring) : List Byte :=
  (List.range (ringCount S x)).map fun i => x.buf.getD ((x.r + i) % S) 0

/-- A well-formed ring: `S` slots, both cursors below `S` (R212). -/
def Ring.wf (S : Nat) (x : Ring) : Bool := x.buf.length == S && decide (x.r < S) && decide (x.w < S)

end Sys2Proof.Machine
end

