-- ==== Sys2Proof/Machine/Ops.lean ====
section
/-! DEFINITION. The operations that the meanings share: the chip interrupt, the interrupt point, the boundary primitives
(00_scope.md R13, 20_memory.md) with the wait of `HostSend`, the log (60 R262), the condition record (60 R240), the guard
on the port, and the device reset (60 R265). -/

namespace Sys2Proof.Machine

/-! ## Interrupts -/

/-- Entry of the chip interrupt for port `p`: the flag is set and the line masked, nothing is saved and no other field
is touched (R171, R253); it wakes the idle wait (R222). -/
def takeChipIrq (p : Port) (s : State) : State := (maskLine p (setPending p s)).setWake true

/-- `IRQ_HANDLER` (R171): one run for one port whose armed line is active, none if there is none. Which of two comes
first is free (R171(a), assumption log 9). -/
def chipIrq (s : State) : State :=
  if irqReady s .p0 then
    if irqReady s .p1 then takeChipIrq (Config.irqFirst s.freeCtr) (s.setFreeCtr (s.freeCtr + 1))
    else takeChipIrq .p0 s
  else if irqReady s .p1 then takeChipIrq .p1 s
  else s

/-- Every chip interrupt that is ready is taken: each port once at most, since its line is masked (R171(a), R254). -/
def takeIrqs (s : State) : State := chipIrq (chipIrq s)

/-- `RING_PUT` on the ring of port `p` (R209). -/
def ringPut (p : Port) (b : Byte) (s : State) : State :=
  s.updShared p fun x => { x with ring := ringPush (ringSlots s.cfg) b x.ring }

/-- The UART receive interrupt (R208, R250): enabled from `SETUP` on, ignored for an absent port (93 U18) and when the
block has halted (R226); it wakes the idle wait (R222(d)). -/
def uartReceive (p : Port) (b : Byte) (s : State) : State :=
  if running s && s.live p then (ringPut p b s).setWake true else s

/-! ## The environment's moves (R229) -/

/-- Host-transport activity: an interrupt whose only effect on the block is to end the idle wait (R248). -/
def hostActivity (s : State) : State := s.setWake true

/-- The three latched interrupt-status registers (R64, R81). -/
def latchedStatus (c : Params) (m : Memory) : StatusBytes :=
  ⟨readReg m c.intStatusAddrA, readReg m c.intStatusAddrB, readReg m c.intStatusAddrC⟩

/-- Write the three interrupt-status registers. -/
def putStatus (c : Params) (m : Memory) (x : StatusBytes) : Memory :=
  writeReg (writeReg (writeReg m c.intStatusAddrA x.ra) c.intStatusAddrB x.rb) c.intStatusAddrC x.rc

/-- Latch further events: the chip's registers keep an event until it is read (R48(b), R64). -/
def latchStatus (c : Params) (m : Memory) (x : StatusBytes) : Memory :=
  let old := latchedStatus c m
  putStatus c m ⟨old.ra ||| x.ra, old.rb ||| x.rb, old.rc ||| x.rc⟩

/-- A device reset is possible: from power-on at any time, from the watchdog only while it is armed (R229, R265). -/
def resetEnabled (s : State) : ResetCause → Bool
  | .powerOn => true
  | .watchdog => s.wdogArmed

/-- One move of the environment (R229). A message is appended only while receive is enabled (R65). After a device reset
was requested nothing more happens until it is taken (R227). -/
def applyMove (m : EnvMove) (s : State) : State :=
  match m with
  | .line p a => s.updEnv p fun e => { e with line := a }
  | .latch p x => s.updEnv p fun e => { e with tcpc := latchStatus s.cfg e.tcpc x }
  | .cc p a b => s.updEnv p fun e => { e with cc1 := a, cc2 := b }
  | .vbus p v => s.updEnv p fun e => { e with vbusPresent := v }
  | .busLow p v => s.updEnv p fun e => { e with busHeldLow := v }
  | .chipReg p a v => s.updEnv p fun e => { e with tcpc := writeReg e.tcpc a v }
  | .rxMsg p r => if (s.out p).rxEn then s.updEnv p fun e => { e with rx := e.rx ++ [r] } else s
  | .afterReset p q x => s.updEnv p fun e => { e with afterResetRx := q, afterResetStatus := x }
  | .hostBytes p bs => hostActivity (s.updEnv p fun e => { e with host := e.host ++ bs })
  | .breakCall c => hostActivity (s.setCalls (s.calls ++ [c]))
  | .uartByte p b => uartReceive p b s
  | .connect p v => hostActivity (s.updEnv p fun e => { e with connected := v })
  | .takes p v => hostActivity (s.updEnv p fun e => { e with takes := v })
  | .reset c => if resetEnabled s c then s.setResetReq (some c) else s

/-- The moves of one interrupt point in order, each with the interrupts it makes ready. After a device reset was requested
the rest stays in the schedule, for the time after it. -/
def playMoves : List EnvMove → State → State
  | [], s => s
  | m :: ms, s =>
    if s.resetReq.isSome then s.setSched ((m :: ms) :: s.sched) else playMoves ms (takeIrqs (applyMove m s))

/-- The interrupt point before a primitive call of `MAIN`: the environment plays the next list of its schedule, and
every enabled handler runs (R72 to R74, R253, R300; assumption log 1 and 16). -/
def point (s : State) : State :=
  if s.resetReq.isSome then s
  else match s.sched with
    | [] => takeIrqs s
    | ms :: rest => takeIrqs (playMoves ms (s.setSched rest))

/-! ## Effects on the environment -/

/-- An effect outside the block: it does not happen once a device reset has abandoned the operation (R227, assumption
log 15). -/
def effect (f : State → State) (s : State) : State := if s.resetReq.isSome then s else f s

/-- Record an event of the outward trace. -/
def emit (e : Event) (s : State) : State := effect (fun s => s.setTrace (s.trace ++ [e])) s

/-! ## Primitives (R13, R80) -/

/-- `Delay(d)` (R300): handlers may run, nothing is written. -/
def delay (p : Port) (d : DelayKind) (s : State) : State := emit (.delay p d) (point s)

/-- The output record after a command (R62). -/
def writeOutput (w : OutWrite) (o : Outputs) : Outputs :=
  match w with
  | .vbus v => { o with vbus := v }
  | .vconn v => { o with vconn := v }
  | .rxEn v => { o with rxEn := v }
  | .ccRole v => { o with ccRole := v }
  | .chipPol v => { o with chipPol := v }
  | .hdrRole v => { o with hdrRole := v }
  | .laneSwap v => { o with laneSwap := v }
  | .srcSel v => { o with srcSel := v }
  | .indicator v => { o with indicator := v }
  | .uartBreak v => { o with uartBreak := v }
  | .attachIrqArmed v => { o with attachIrqArmed := v }

/-- `Out[p].g <- v`: the command and the record of its last value (R33, R62). -/
def outWrite (p : Port) (w : OutWrite) (s : State) : State :=
  emit (.out p w) ((point s).updOut p (writeOutput w))

/-- `(Out[p].g, Out[p].h) <- (v, w)` (R164): both outputs change at once, so that no handler and no reader sees one without
the other (R51 I-6); that the trace lists the command of `g` first is the model's choice (assumption log 37). -/
def outWritePair (p : Port) (v w : OutWrite) (s : State) : State :=
  emit (.out p w) (emit (.out p v) ((point s).updOut p fun o => writeOutput w (writeOutput v o)))

/-- The current CC levels of port `p`, each in `0..CC_MAX` (R63). -/
def ccLevels (s : State) (p : Port) : Nat × Nat :=
  (min (s.env p).cc1 s.cfg.ccMax, min (s.env p).cc2 s.cfg.ccMax)

/-- `TcpcReset(p)` (R62, R285): the chip's queue and status afterwards are whatever the environment holds ready. -/
def tcpcReset (p : Port) (s : State) : State :=
  emit (.tcpcReset p) (effect (fun s => s.updEnv p fun e =>
    { e with rx := e.afterResetRx, tcpc := putStatus s.cfg e.tcpc e.afterResetStatus }) (point s))

/-- `IntStatusReadClear(p)` (R64): the three status bytes, cleared in one pass. -/
def intStatusReadClear (p : Port) (s : State) : StatusBytes × State :=
  let s := point s
  (latchedStatus s.cfg (s.env p).tcpc,
    effect (fun s => s.updEnv p fun e => { e with tcpc := putStatus s.cfg e.tcpc ⟨0, 0, 0⟩ }) s)

/-- `RxEmpty(p)` (R65); an abandoned operation pops nothing more. -/
def rxIsEmpty (s : State) (p : Port) : Bool := s.resetReq.isSome || (s.env p).rx.isEmpty

/-- `RxGet(p)` (R65): the oldest record, removed. -/
def rxGet (p : Port) (s : State) : Option RxRecord × State :=
  if s.resetReq.isSome then (none, s)
  else match (s.env p).rx with
    | [] => (none, s)
    | r :: rest => (some r, s.updEnv p fun e => { e with rx := rest })

/-- `HostTryRecv(p)` (R66): the oldest unread byte, removed, or `none`. -/
def hostTryRecv (p : Port) (s : State) : Option Byte × State :=
  if s.resetReq.isSome then (none, s)
  else match (s.env p).host with
    | [] => (none, s)
    | b :: rest => (some b, s.updEnv p fun e => { e with host := rest })

/-- What is recorded of a send that ended after `k` of its bytes: nothing, or the accepted beginning of a log line (R67). -/
def cutEvents (k : Nat) : Event → List Event
  | .log p l => if k = 0 then [] else [.logCut p l k]
  | _ => []

/-- `MAIN` is stuck in a `HostSend` on port `p` (R226(c)); stuck once, it stays in that send, so the first port counts. -/
def stall (p : Port) (s : State) : State := s.setStalled (s.stalled.or (some p))

/-- `HostSend` in progress: `k` of the `n` bytes of `e` were accepted. A disconnected channel ends it, the rest is lost (R67,
R229); a host that takes accepts the next byte (R80: atomic per byte); one that does not makes `MAIN` wait, while handlers
and the environment go on (R295). With nothing left in the schedule nothing changes any more: the host takes all the rest,
or `MAIN` is stuck for ever (R226(c), 93 U10). The connectivity is read once at each interrupt point: a drop that is over
by then (dropped and back in one list of moves) is not noticed and the wait goes on, while R229 says only that a drop makes
the call return (DESIGN CHOICE, assumption log 39). The first argument is the schedule that `s` holds. -/
def sendBytes (p : Port) (e : Event) (n : Nat) : List (List EnvMove) → Nat → State → State
  | [], k, s =>
    if s.resetReq.isSome || !(s.env p).connected then s.setTrace (s.trace ++ cutEvents k e)
    else if (s.env p).takes then s.setTrace (s.trace ++ [e])
    else stall p s
  | _ :: ms, k, s =>
    if s.resetReq.isSome || !(s.env p).connected then s.setTrace (s.trace ++ cutEvents k e)
    else if (s.env p).takes then
      if k + 1 < n then sendBytes p e n ms (k + 1) (point s) else s.setTrace (s.trace ++ [e])
    else sendBytes p e n ms k (point s)

/-- `HostSend(p, e)` (R67): a no-op on a disconnected channel, otherwise it blocks until the host has taken every byte of
those the block sends, counted before the transport's translation (assumption log 39). -/
def hostSend (p : Port) (e : Event) (s : State) : State :=
  let s := point s
  if s.resetReq.isSome then s else sendBytes p e (sendLength s.cfg e) s.sched 0 s

/-- `UartPut(p, b)` (R68). -/
def uartPut (p : Port) (b : Byte) (s : State) : State := emit (.uart p b) (point s)

/-- `RING_GET` on the ring of port `p`, one interrupt-disable section (R74, R210): no interrupt point inside. -/
def ringGet (p : Port) (s : State) : Option Byte × State :=
  let x := ringPop (ringSlots s.cfg) (s.shared p).ring
  (x.1, s.updShared p fun h => { h with ring := x.2 })

/-! ## Log and conditions -/

/-- `Log(p, kind, data)` (R262): one line; a line of class `VERBOSE` only while verbose (R260). -/
def logLine (p : Port) (l : LogBody) (s : State) : State :=
  if verboseClass l && !(s.regs p).verbose then s else hostSend p (.log p l) s

/-- The optional `DIAG` lines of an operation of port `p` (R267): any number and any text while verbose, none
otherwise (assumption log 7). -/
def diag (p : Port) (s : State) : State :=
  if (s.regs p).verbose then
    (Config.diagLines s.freeCtr).foldl (fun s t => logLine p (.diag t) s) (s.setFreeCtr (s.freeCtr + 1))
  else s

/-- `raise <Condition>(info)` (R12, R240, R246): records the condition and does the logging of its response; it never
transfers control. Transient noise records nothing (R242). -/
def raise (c : Condition) (s : State) : State :=
  match c with
  | .absence p a => logLine p (.absent a) (emit (.raised c) s)
  | .transientNoise _ _ => s
  | .protocolViolationMsg p m => logLine p (.unhandledMsg m) (emit (.raised c) s)
  | .protocolViolationVdm p m => logLine p (.unhandledVdm m) (emit (.raised c) s)
  | .hardFailure _ _ => emit (.raised c) s
  | .operatorFatal _ => emit (.raised c) s

/-! ## Transmission (R149) -/

/-- The role fields of a header: source and DFP once the role is set, free while it is unset (R149(a), 93 U6). -/
def headerRoles (p : Port) (s : State) : PowerRole × DataRole :=
  match (s.out p).hdrRole with
  | .source => (.source, .dfp)
  | .unset => Config.freeRoles s.freeCtr

/-- A free value was drawn for an unset header role. -/
def drawRoles (p : Port) (s : State) : State :=
  match (s.out p).hdrRole with
  | .source => s
  | .unset => s.setFreeCtr (s.freeCtr + 1)

/-- The message `Tx` builds (R97, R149). -/
def buildMsg (p : Port) (c : MsgCode) (objs : Objs) (s : State) : Msg :=
  { type := s.cfg.msgCodes.get c
    prole := (headerRoles p s).1
    drole := (headerRoles p s).2
    rev := s.cfg.specRev
    obj := objs }

/-- `Tx(p, class, objs)` (R149): one message handed to the transceiver; `k` is its label in the spec's vectors. -/
def tx (p : Port) (k : TxKind) (c : MsgCode) (objs : Objs) (s : State) : State :=
  let s := point s
  emit (.tx p k (buildMsg p c objs s)) (drawRoles p s)

/-- A SET ACTION transmission (R102, R161 to R164). -/
def txAction (p : Port) (k : TxKind) (a : VdmAction) (s : State) : State :=
  tx p k .vendorDefined (actionObjs s.cfg.actions a) s

/-! ## The guard on the port -/

/-- The outcome of an operation: the state it leaves, or stuck in a `HostSend` that no one takes (R226(c), 93 U10). -/
def stallOutcome (s : State) : Host.Outcome State Fault Refusal :=
  match s.stalled with
  | none => .next s
  | some p => .fault (.hostSendStalled p)

/-- The guard of an operation of port `p`: refused before `SETUP(p)` has returned (R281, 93 U1), without effect on an absent
port, which is permanently inert (R29, R215, 93 U18; assumption log 12), otherwise `k`. -/
def guardPort (p : Port) (k : State → Host.Outcome State Fault Refusal) (s : State) : Host.Outcome State Fault Refusal :=
  if (s.regs p).setUp then
    if (s.regs p).present then k s else .next s
  else .refused .notSetUp

/-- An operation of `MAIN` on port `p`, which may send to the host and so may be stuck there. -/
def onPort (p : Port) (f : State → State) (s : State) : Host.Outcome State Fault Refusal :=
  guardPort p (fun s => stallOutcome (f s)) s

/-- An operation of a handler on port `p`: it must not block and sends nothing (R256). -/
def onPortIrq (p : Port) (f : State → State) (s : State) : Host.Outcome State Fault Refusal :=
  guardPort p (fun s => .next (f s)) s

/-! ## Device reset (R265, R280, R281) -/

/-- A port after a device reset: the block's fields at their reset values, the environment's as they are. -/
def resetPort (slots : Nat) (x : PortState) : PortState :=
  { x with regs := PortRegs.reset, out := Outputs.reset, shared := Shared.reset slots }

/-- `DEVICE_RESET`: all state of the block is lost and `MAIN_ENTRY` runs next (R50, R265, R280). Unread host bytes and break
calls not yet delivered are the environment's and stay (assumption log 38). -/
def resetDevice (s : State) : State :=
  { s with
    port0 := resetPort (ringSlots s.cfg) s.port0
    port1 := resetPort (ringSlots s.cfg) s.port1
    wdogArmed := false
    halt := .running
    pos := .entry
    wake := false
    resetReq := none
    stalled := none
    ret := none }

/-- The end of a step: a device reset that landed inside it is taken (R227, assumption log 15). -/
def settle (s : State) : State := if s.resetReq.isSome then resetDevice s else s

/-! ## Bounds of the drain loops -/

/-- How many items a move can add to a queue of port `p` or to the break calls. -/
def moveWeight : EnvMove → Nat
  | .hostBytes _ bs => bs.length
  | .rxMsg _ _ => 1
  | .uartByte _ _ => 1
  | .breakCall _ => 1
  | _ => 0

/-- How many items the schedule can still deliver: with what is queued, the bound of every drain loop (assumption
log 23). -/
def schedWeight (s : State) : Nat := (s.sched.map fun ms => (ms.map moveWeight).sum).sum

end Sys2Proof.Machine
end

