-- ==== Sys2Proof/Machine/Transmit.lean ====
section
/-! DEFINITION. The transmit operations (41_pd_messages_vdm.md R150 to R165): what each hands to the transceiver. For
every operation, `f p s` is its effect on a live port and `execF p s` its meaning with the guard on the port. -/

namespace Sys2Proof.Machine

/-- `TX_SOURCE_CAP` (R150): the fixed Source-Capabilities advertisement. -/
def txSourceCap (p : Port) (s : State) : State :=
  let s := diag p s
  tx p .sourceCap .sourceCap s.cfg.srcCapObjs s

/-- Meaning of `TX_SOURCE_CAP` (R150). -/
def execTxSourceCap (p : Port) (s : State) : Host.Outcome State Fault Refusal := onPort p (txSourceCap p) s

/-- `TX_REQUEST` (R151): the fixed Request. -/
def txRequest (p : Port) (s : State) : State :=
  let s := diag p s
  tx p .request .request s.cfg.requestObjs s

/-- Meaning of `TX_REQUEST` (R151). -/
def execTxRequest (p : Port) (s : State) : Host.Outcome State Fault Refusal := onPort p (txRequest p) s

/-- `TX_ACCEPT` (R152): Accept, no objects. -/
def txAccept (p : Port) (s : State) : State :=
  let s := diag p s
  tx p .accept .accept (Objs.clip []) s

/-- Meaning of `TX_ACCEPT` (R152). -/
def execTxAccept (p : Port) (s : State) : Host.Outcome State Fault Refusal := onPort p (txAccept p) s

/-- `TX_REJECT` (R153): Reject, no objects. -/
def txReject (p : Port) (s : State) : State :=
  let s := diag p s
  tx p .reject .reject (Objs.clip []) s

/-- Meaning of `TX_REJECT` (R153). -/
def execTxReject (p : Port) (s : State) : Host.Outcome State Fault Refusal := onPort p (txReject p) s

/-- `TX_PS_RDY` (R154): PS_RDY, no objects. -/
def txPsRdy (p : Port) (s : State) : State :=
  let s := diag p s
  tx p .psRdy .psRdy (Objs.clip []) s

/-- Meaning of `TX_PS_RDY` (R154). -/
def execTxPsRdy (p : Port) (s : State) : Host.Outcome State Fault Refusal := onPort p (txPsRdy p) s

/-- `TX_SINK_CAP` (R155): Sink-Capabilities. -/
def txSinkCap (p : Port) (s : State) : State :=
  let s := diag p s
  tx p .sinkCap .sinkCap s.cfg.sinkCapObjs s

/-- Meaning of `TX_SINK_CAP` (R155). -/
def execTxSinkCap (p : Port) (s : State) : Host.Outcome State Fault Refusal := onPort p (txSinkCap p) s

/-- `TX_PROBE` (R156): the debug-channel probe. -/
def txProbe (p : Port) (s : State) : State :=
  let s := diag p s
  tx p .probe s.cfg.probeCode s.cfg.probeObjs s

/-- Meaning of `TX_PROBE` (R156). -/
def execTxProbe (p : Port) (s : State) : Host.Outcome State Fault Refusal := onPort p (txProbe p) s

/-- `TX_IDENTITY_ACK` (R157): the fixed identity payload. -/
def txIdentityAck (p : Port) (s : State) : State :=
  let s := diag p s
  tx p .identityAck .vendorDefined s.cfg.identityObjs s

/-- Meaning of `TX_IDENTITY_ACK` (R157). -/
def execTxIdentityAck (p : Port) (s : State) : Host.Outcome State Fault Refusal := onPort p (txIdentityAck p) s

/-- `TX_VDM_REBOOT` (R161): SET ACTION reboot. -/
def txVdmReboot (p : Port) (s : State) : State :=
  let s := diag p s
  txAction p .vdmReboot .reboot s

/-- Meaning of `TX_VDM_REBOOT` (R161). -/
def execTxVdmReboot (p : Port) (s : State) : Host.Outcome State Fault Refusal := onPort p (txVdmReboot p) s

/-- `TX_VDM_DFU_HOLD` (R162): SET ACTION firmware-update hold; nothing in the block invokes it. -/
def txVdmDfuHold (p : Port) (s : State) : State :=
  let s := diag p s
  txAction p .vdmDfuHold .dfuHold s

/-- Meaning of `TX_VDM_DFU_HOLD` (R162). -/
def execTxVdmDfuHold (p : Port) (s : State) : Host.Outcome State Fault Refusal := onPort p (txVdmDfuHold p) s

/-- `TX_VDM_PD_RESET` (R163): SET ACTION PD reset. -/
def txVdmPdReset (p : Port) (s : State) : State :=
  let s := diag p s
  txAction p .vdmPdReset .pdReset s

/-- Meaning of `TX_VDM_PD_RESET` (R163). -/
def execTxVdmPdReset (p : Port) (s : State) : Host.Outcome State Fault Refusal := onPort p (txVdmPdReset p) s

/-- `TX_VDM_SERIAL_ROUTE` (R164): SET ACTION serial route with the port's current route, then the two routing outputs
derived from the route and the negotiated polarity (R165), assigned at once as the rule's tuple. -/
def txVdmSerialRoute (p : Port) (s : State) : State :=
  let s := diag p s
  let r := (s.regs p).route
  let s := txAction p (.vdmSerialRoute r) (.serialRoute r) s
  outWritePair p (.laneSwap (routeLaneSwap r (s.regs p).pol)) (.srcSel (routeSrcSel r)) s

/-- Meaning of `TX_VDM_SERIAL_ROUTE` (R164). -/
def execTxVdmSerialRoute (p : Port) (s : State) : Host.Outcome State Fault Refusal := onPort p (txVdmSerialRoute p) s

end Sys2Proof.Machine
end

