-- ==== Sys2Proof/Machine/PolicyEngine.lean ====
section
/-! DEFINITION. The port policy engine (40_policy_engine.md R121 to R130). For every operation, `f p s` is its effect on
a live port and `execF p s` its meaning with the guard on the port. -/

namespace Sys2Proof.Machine

/-- `VBUS_OFF` (R130): drive off, wait for the settling delay, release. -/
def vbusOff (p : Port) (s : State) : State :=
  let s := diag p s
  let s := outWrite p (.vbus .offDriven) s
  let s := delay p .vbusSettle s
  outWrite p (.vbus .released) s

/-- Meaning of `VBUS_OFF` (R130). -/
def execVbusOff (p : Port) (s : State) : Host.Outcome State Fault Refusal := onPort p (vbusOff p) s

/-- `DISCONNECT` (R129): unconditional; the counters are cleared (D8), the operator's settings kept. -/
def disconnect (p : Port) (s : State) : State :=
  let s := diag p s
  let s := vbusOff p s
  let s := outWrite p (.vconn false) s
  let s := outWrite p (.rxEn false) s
  let s := outWrite p (.ccRole .srcPlain) s
  s.updRegs p fun r => { r with deb := 0, sct := 0, ps := .disconnected }

/-- Meaning of `DISCONNECT` (R129). -/
def execDisconnect (p : Port) (s : State) : Host.Outcome State Fault Refusal := onPort p (disconnect p) s

/-- A failed validation of `SETUP` (R121, R241): the port is absent for good, its line not armed, the condition raised.
The closing `DIAG` lines of `SETUP` stand at its end (R267, assumption log 7). -/
def markAbsent (p : Port) (c : AbsenceCause) (s : State) : State :=
  let s := s.updRegs p fun r => { r with present := false }
  let s := s.updShared p fun x => { x with irqEn := false, pending := false }
  diag p (raise (.absence p c) s)

/-- The field initialisations of `SETUP` of a port that passed both validations (R121, R52). -/
def setupFields (p : Port) (s : State) : State :=
  let s := s.updRegs p fun r =>
    { r with pol := .cc1, route := .primaryUsb, deb := 0, sct := 0, esc := false, verbose := s.cfg.verboseReset }
  s.updShared p fun x => { x with pending := false, ring := emptyRing (ringSlots s.cfg) }

/-- `SETUP` after both validations passed (R121). Its closing `DIAG` lines stand before the line is armed (assumption log 7):
from there to the return of `SETUP` no interrupt point is left (R281). -/
def setupPresent (p : Port) (s : State) : State :=
  let s := s.updRegs p fun r => { r with present := true }
  let s := tcpcReset p s
  let s := outWrite p (.rxEn false) s
  let s := outWrite p (.ccRole .srcSeek) s
  let s := outWrite p (.laneSwap false) s
  let s := outWrite p (.srcSel .usbPins) s
  let s := setupFields p s
  let s := outWrite p (.vconn false) s
  let s := outWrite p (.chipPol .unset) s
  let s := outWrite p (.hdrRole .unset) s
  let s := outWrite p (.uartBreak false) s
  let s := outWrite p (.attachIrqArmed true) s
  let s := diag p s
  let s := armLine p s
  s.updRegs p fun r => { r with ps := .disconnected }

/-- The identity read and its validation (R121). -/
def setupIdentify (p : Port) (s : State) : State :=
  let s := point s
  if idValid s.cfg (readReg (s.env p).tcpc s.cfg.idRegAddr) then setupPresent p s else markAbsent p .badId s

/-- `SETUP` (R121): the two side effects first, for present and absent ports alike (D10), then the bus-line check, the
identity check, and the initialisation. Until it has returned no handler runs for the port (R281). Its optional `DIAG` lines
stand at its start, by the verbosity before it, and where it closes, by the one it leaves (R267, assumption log 7). -/
def setup (p : Port) (s : State) : State :=
  let s := diag p s
  let s := outWrite p (.indicator s.cfg.indicatorLevel) s
  let s := vbusOff p s
  let s := point s
  let s := if (s.env p).busHeldLow then markAbsent p .busLow s else setupIdentify p s
  s.updRegs p fun r => { r with setUp := true }

/-- Meaning of `SETUP` (R121); a second call is refused (93 U17). -/
def execSetup (p : Port) (s : State) : Host.Outcome State Fault Refusal :=
  if (s.regs p).setUp then .refused .setUpTwice else stallOutcome (setup p s)

/-- The attach of `ON_ATTACH` once the re-read saw an attach level (R123); the order is the source's sentence. -/
def attach (p : Port) (cc : Nat × Nat) (s : State) : State :=
  let s := tcpcReset p s
  let s := outWrite p (.hdrRole .source) s
  let s := outWrite p (.vconn false) s
  let s := s.updRegs p fun r => { r with pol := selectPolarity cc }
  let s := outWrite p (.chipPol (chipPolOf (selectPolarity cc))) s
  let s := if wantVconn cc then outWrite p (.vconn true) s else s
  let s := outWrite p (.rxEn true) s
  let s := outWrite p (.vbus .on) s
  let s := s.updRegs p fun r => { r with ps := .dfpVbusOn }
  txProbe p s

/-- `ON_ATTACH` (R123): re-reads CC; a false attach changes nothing. -/
def onAttach (p : Port) (s : State) : State :=
  let s := point (diag p s)
  if anyAttach s.cfg (ccLevels s p) then attach p (ccLevels s p) s
  else raise (.transientNoise p .falseAttach) s

/-- Meaning of `ON_ATTACH` (R123). -/
def execOnAttach (p : Port) (s : State) : Host.Outcome State Fault Refusal := onPort p (onAttach p) s

/-- `POLL_DISCONNECTED` (R122): attach, or sleep before the next poll. -/
def pollDisconnected (p : Port) (s : State) : State :=
  let s := point (diag p s)
  if anyAttach s.cfg (ccLevels s p) then onAttach p s else delay p (.pollSleep Config.pollSleepMs) s

/-- Meaning of `POLL_DISCONNECTED` (R122). -/
def execPollDisconnected (p : Port) (s : State) : Host.Outcome State Fault Refusal := onPort p (pollDisconnected p) s

/-- `TICK_VBUS_ON` (R124): strictly past the threshold it retransmits, re-probes and clears the timer (D7). -/
def tickVbusOn (p : Port) (s : State) : State :=
  let s := diag p s
  let s := s.updRegs p fun r => { r with sct := r.sct + 1 }
  if (s.regs p).sct > Config.srcCapRetry then
    let s := txSourceCap p s
    let s := txProbe p s
    s.updRegs p fun r => { r with sct := 0 }
  else s

/-- Meaning of `TICK_VBUS_ON` (R124). -/
def execTickVbusOn (p : Port) (s : State) : Host.Outcome State Fault Refusal := onPort p (tickVbusOn p) s

/-- `TICK_READY` (R125): the one-shot step to `IDLE`. -/
def tickReady (p : Port) (s : State) : State :=
  (diag p s).updRegs p fun r => { r with ps := .idle }

/-- Meaning of `TICK_READY` (R125). -/
def execTickReady (p : Port) (s : State) : Host.Outcome State Fault Refusal := onPort p (tickReady p) s

/-- `DEBOUNCE` (R127): counts consecutive low readings; more than the limit is a detach. -/
def debounce (p : Port) (s : State) : State :=
  let s := point (diag p s)
  if bothBelow s.cfg (ccLevels s p) then
    let s := s.updRegs p fun r => { r with deb := r.deb + 1 }
    if (s.regs p).deb > Config.debounceLimit then disconnect p s
    else raise (.transientNoise p .lowReading) s
  else s.updRegs p fun r => { r with deb := 0 }

/-- Meaning of `DEBOUNCE` (R127). -/
def execDebounce (p : Port) (s : State) : Host.Outcome State Fault Refusal := onPort p (debounce p) s

/-- The state's own step of a tick (R126). -/
def tickState (p : Port) (s : State) : State :=
  match (s.regs p).ps with
  | .disconnected => pollDisconnected p s
  | .dfpVbusOn => tickVbusOn p s
  | .ready => tickReady p s
  | .connected | .dfpConnected | .dfpAccept | .idle => s

/-- `TICK` (R126): the state's own step, then `DEBOUNCE` unless the tick began in `DISCONNECTED` (D4). -/
def tick (p : Port) (s : State) : State :=
  let s := diag p s
  let t := tickState p s
  if (s.regs p).ps = .disconnected then t else debounce p t

/-- Meaning of `TICK` (R126). -/
def execTick (p : Port) (s : State) : Host.Outcome State Fault Refusal := onPort p (tick p) s

/-- `ON_TX_COMPLETE` (R128). -/
def onTxComplete (p : Port) (s : State) : State :=
  let s := diag p s
  match (s.regs p).ps with
  | .dfpVbusOn => txVdmSerialRoute p (s.updRegs p fun r => { r with ps := .dfpConnected })
  | .dfpAccept => (txPsRdy p s).updRegs p fun r => { r with ps := .idle }
  | .disconnected | .connected | .dfpConnected | .idle | .ready => s

/-- Meaning of `ON_TX_COMPLETE` (R128). -/
def execOnTxComplete (p : Port) (s : State) : Host.Outcome State Fault Refusal := onPort p (onTxComplete p) s

end Sys2Proof.Machine
end

