-- ==== Sys2Proof/Machine/Messages.lean ====
section
/-! DEFINITION. Dispatch of received PD messages and vendor-defined messages (41_pd_messages_vdm.md R140 to R148, R158 to
R160, R167). No arm tests the policy state (R167). For every operation, `f p m s` is its effect on a live port and
`execF p m s` its meaning with the guard on the port. -/

namespace Sys2Proof.Machine

/-- `RX_SOURCE_CAP` (R141): the fixed Request; the objects are not read. -/
def rxSourceCap (p : Port) (_m : Msg) (s : State) : State := txRequest p (diag p s)

/-- Meaning of `RX_SOURCE_CAP` (R141). -/
def execRxSourceCap (p : Port) (m : Msg) (s : State) : Host.Outcome State Fault Refusal := onPort p (rxSourceCap p m) s

/-- `RX_REQUEST` (R142): Accept, then `DFP_ACCEPT`; the object is not checked. -/
def rxRequest (p : Port) (_m : Msg) (s : State) : State :=
  (txAccept p (diag p s)).updRegs p fun r => { r with ps := .dfpAccept }

/-- Meaning of `RX_REQUEST` (R142). -/
def execRxRequest (p : Port) (m : Msg) (s : State) : Host.Outcome State Fault Refusal := onPort p (rxRequest p m) s

/-- `RX_PR_SWAP` (R147): Reject (D18). -/
def rxPrSwap (p : Port) (_m : Msg) (s : State) : State := txReject p (diag p s)

/-- Meaning of `RX_PR_SWAP` (R147). -/
def execRxPrSwap (p : Port) (m : Msg) (s : State) : Host.Outcome State Fault Refusal := onPort p (rxPrSwap p m) s

/-- `RX_DR_SWAP` (R148): Reject (D18). -/
def rxDrSwap (p : Port) (_m : Msg) (s : State) : State := txReject p (diag p s)

/-- Meaning of `RX_DR_SWAP` (R148). -/
def execRxDrSwap (p : Port) (m : Msg) (s : State) : Host.Outcome State Fault Refusal := onPort p (rxDrSwap p m) s

/-- `RX_GET_SINK_CAP` (R144): Sink-Capabilities, then `READY`. -/
def rxGetSinkCap (p : Port) (_m : Msg) (s : State) : State :=
  (txSinkCap p (diag p s)).updRegs p fun r => { r with ps := .ready }

/-- Meaning of `RX_GET_SINK_CAP` (R144). -/
def execRxGetSinkCap (p : Port) (m : Msg) (s : State) : Host.Outcome State Fault Refusal := onPort p (rxGetSinkCap p m) s

/-- `RX_EMPTY` (R145): nothing; transient noise is not recorded (R242). -/
def rxEmpty (p : Port) (_m : RxRecord) (s : State) : State := raise (.transientNoise p .emptyRx) (diag p s)

/-- Meaning of `RX_EMPTY` (R145). -/
def execRxEmpty (p : Port) (m : RxRecord) (s : State) : Host.Outcome State Fault Refusal := onPort p (rxEmpty p m) s

/-- `RX_OTHER` (R146): a protocol violation, logged verbatim, no reply. -/
def rxOther (p : Port) (m : Msg) (s : State) : State := raise (.protocolViolationMsg p m) (diag p s)

/-- Meaning of `RX_OTHER` (R146). -/
def execRxOther (p : Port) (m : Msg) (s : State) : Host.Outcome State Fault Refusal := onPort p (rxOther p m) s

/-- `VDM_DISCOVER_IDENTITY_REQ` (R158): the identity payload, then `READY`. -/
def vdmDiscoverIdentityReq (p : Port) (_m : Msg) (s : State) : State :=
  (txIdentityAck p (diag p s)).updRegs p fun r => { r with ps := .ready }

/-- Meaning of `VDM_DISCOVER_IDENTITY_REQ` (R158). -/
def execVdmDiscoverIdentityReq (p : Port) (m : Msg) (s : State) : Host.Outcome State Fault Refusal :=
  onPort p (vdmDiscoverIdentityReq p m) s

/-- `VDM_DISCOVER_IDENTITY_ACK` (R159): nothing but an optional line of class `VERBOSE` (D19, assumption log 8). -/
def vdmDiscoverIdentityAck (p : Port) (m : Msg) (s : State) : State :=
  let s := diag p s
  if (s.regs p).verbose then
    let t := s.setFreeCtr (s.freeCtr + 1)
    if Config.ackLogged s.freeCtr then logLine p (.vdmAck m) t else t
  else s

/-- Meaning of `VDM_DISCOVER_IDENTITY_ACK` (R159). -/
def execVdmDiscoverIdentityAck (p : Port) (m : Msg) (s : State) : Host.Outcome State Fault Refusal :=
  onPort p (vdmDiscoverIdentityAck p m) s

/-- `VDM_OTHER` (R160): a protocol violation, logged verbatim; a received SET ACTION ends here (R166). -/
def vdmOther (p : Port) (m : Msg) (s : State) : State := raise (.protocolViolationVdm p m) (diag p s)

/-- Meaning of `VDM_OTHER` (R160). -/
def execVdmOther (p : Port) (m : Msg) (s : State) : Host.Outcome State Fault Refusal := onPort p (vdmOther p m) s

/-- `RX_VDM` (R143): dispatch on the sub-command class (R101). -/
def rxVdm (p : Port) (m : Msg) (s : State) : State :=
  let s := diag p s
  match vdmClass s.cfg m with
  | .discoverIdentityReq => vdmDiscoverIdentityReq p m s
  | .discoverIdentityAck => vdmDiscoverIdentityAck p m s
  | .other => vdmOther p m s

/-- Meaning of `RX_VDM` (R143). -/
def execRxVdm (p : Port) (m : Msg) (s : State) : Host.Outcome State Fault Refusal := onPort p (rxVdm p m) s

/-- The operation of a decoded record (R140). -/
def runRxOp (p : Port) (o : RxOp) (s : State) : State :=
  match o with
  | .empty r => rxEmpty p r s
  | .sourceCap m => rxSourceCap p m s
  | .request m => rxRequest p m s
  | .vendorDefined m => rxVdm p m s
  | .prSwap m => rxPrSwap p m s
  | .drSwap m => rxDrSwap p m s
  | .getSinkCap m => rxGetSinkCap p m s
  | .other m => rxOther p m s

/-- `ON_MESSAGE` (R140): dispatch by class, whatever the policy state (R167). -/
def onMessage (p : Port) (m : RxRecord) (s : State) : State :=
  let s := diag p s
  runRxOp p (decodeRecord s.cfg m) s

/-- Meaning of `ON_MESSAGE` (R140). -/
def execOnMessage (p : Port) (m : RxRecord) (s : State) : Host.Outcome State Fault Refusal := onPort p (onMessage p m) s

end Sys2Proof.Machine
end

