-- ==== Sys2Proof/Machine/EventDispatcher.lean ====
section
/-! DEFINITION. The event dispatcher (42_event_dispatcher.md R171 to R178). For every operation on a port, `f p s` is its
effect on a live port and `execF p s` its meaning with the guard on the port. -/

namespace Sys2Proof.Machine

/-- Meaning of `IRQ_HANDLER` (R171): the handler runs for a port whose armed line is active, if there is one. -/
def execIrqHandler (s : State) : Host.Outcome State Fault Refusal := .next (chipIrq s)

/-- `EV_VBUS_GOOD` (R173): branches on whether VBUS is present; not on the policy state. -/
def evVbusGood (p : Port) (s : State) : State :=
  let s := point (diag p s)
  if (s.env p).vbusPresent then txProbe p (txSourceCap p s)
  else disconnect p (raise (.hardFailure p .vbusLost) s)

/-- Meaning of `EV_VBUS_GOOD` (R173). -/
def execEvVbusGood (p : Port) (s : State) : Host.Outcome State Fault Refusal := onPort p (evVbusGood p) s

/-- `EV_HARD_RESET` (R174): unconditional disconnect. -/
def evHardReset (p : Port) (s : State) : State := disconnect p (raise (.hardFailure p .hardReset) (diag p s))

/-- Meaning of `EV_HARD_RESET` (R174). -/
def execEvHardReset (p : Port) (s : State) : Host.Outcome State Fault Refusal := onPort p (evHardReset p) s

/-- `EV_TX_SUCCESS` (R175). -/
def evTxSuccess (p : Port) (s : State) : State := onTxComplete p (diag p s)

/-- Meaning of `EV_TX_SUCCESS` (R175). -/
def execEvTxSuccess (p : Port) (s : State) : Host.Outcome State Fault Refusal := onPort p (evTxSuccess p) s

/-- One turn of the drain loop of `EV_MSG_RX` (R176): `none` when the queue reports empty, otherwise the oldest record
is popped and handled completely. -/
def drainRxOnce (p : Port) (s : State) : Option State :=
  let s := point s
  if rxIsEmpty s p then none
  else match rxGet p (point s) with
    | (some m, t) => some (onMessage p m t)
    | (none, t) => some t

/-- The drain loop of `EV_MSG_RX`, at most `n` records. -/
def drainRx (p : Port) : Nat → State → State
  | 0, s => s
  | n + 1, s =>
    match drainRxOnce p s with
    | some t => drainRx p n t
    | none => point s

/-- `EV_MSG_RX` (R176): drains the receive queue, messages that arrive meanwhile included; the bound is what is queued
and what the schedule can still deliver (assumption log 23). -/
def evMsgRx (p : Port) (s : State) : State :=
  let s := diag p s
  drainRx p ((s.env p).rx.length + schedWeight s + 1) s

/-- Meaning of `EV_MSG_RX` (R176). -/
def execEvMsgRx (p : Port) (s : State) : Host.Outcome State Fault Refusal := onPort p (evMsgRx p) s

/-- The operation of an event (R95). -/
def runEvent (p : Port) (k : EvKind) (s : State) : State :=
  match k with
  | .vbusGood => evVbusGood p s
  | .hardReset => evHardReset p s
  | .txSuccess => evTxSuccess p s
  | .msgRx => evMsgRx p s

/-- The events of one status read, in order; none suppresses a later one (R178). -/
def runEvents (p : Port) (ks : List EvKind) (s : State) : State := ks.foldl (fun s k => runEvent p k s) s

/-- `REARM` (R177). -/
def rearm (p : Port) (s : State) : State := armLine p (diag p s)

/-- Meaning of `REARM` (R177). -/
def execRearm (p : Port) (s : State) : Host.Outcome State Fault Refusal := onPort p (rearm p) s

/-- `SERVICE` (R172): one status read, every true event in the fixed order, one tick, one re-arm (R180). The pending
flag is cleared by the test-and-clear of `RUN_PASS`, once (90 C9). -/
def service (p : Port) (s : State) : State :=
  let x := intStatusReadClear p (diag p s)
  let s := runEvents p (decodeStatus x.2.cfg x.1) x.2
  rearm p (tick p s)

/-- Meaning of `SERVICE` (R172). -/
def execService (p : Port) (s : State) : Host.Outcome State Fault Refusal := onPort p (service p) s

end Sys2Proof.Machine
end

