-- ==== Sys2Proof/Machine/Multiplexer.lean ====
section
/-! DEFINITION. The command and passthrough multiplexer (43_multiplexer.md R190 to R212). For every operation on a port,
`f p s` is its effect on a live port and `execF p s` its meaning with the guard on the port. Every armed-mode
operation starts by disarming (R190, R205; assumption log 22). -/

namespace Sys2Proof.Machine

/-- `PASS` (R192): the byte verbatim to the UART. -/
def pass (p : Port) (b : Byte) (s : State) : State := uartPut p b (diag p s)

/-- Meaning of `PASS` (R192). -/
def execPass (p : Port) (b : Byte) (s : State) : Host.Outcome State Fault Refusal := onPort p (pass p b) s

/-- `ESC_ARM` (R193): arms, forwards nothing. -/
def escArm (p : Port) (s : State) : State := armEscape p (diag p s)

/-- Meaning of `ESC_ARM` (R193). -/
def execEscArm (p : Port) (s : State) : Host.Outcome State Fault Refusal := onPort p (escArm p) s

/-- `ESC_LITERAL` (R194): one literal escape byte to the UART. -/
def escLiteral (p : Port) (s : State) : State := uartPut p Config.esc (diag p (disarmEscape p s))

/-- Meaning of `ESC_LITERAL` (R194). -/
def execEscLiteral (p : Port) (s : State) : Host.Outcome State Fault Refusal := onPort p (escLiteral p) s

/-- `CMD_REBOOT_TARGET` (R195). -/
def cmdRebootTarget (p : Port) (s : State) : State := txVdmReboot p (diag p (disarmEscape p s))

/-- Meaning of `CMD_REBOOT_TARGET` (R195). -/
def execCmdRebootTarget (p : Port) (s : State) : Host.Outcome State Fault Refusal := onPort p (cmdRebootTarget p) s

/-- `CMD_SELF_RESET` (R196): arms the watchdog; the block keeps running until the reset (R287). -/
def cmdSelfReset (p : Port) (s : State) : State :=
  raise (.operatorFatal .selfReset) ((diag p (disarmEscape p s)).setWdogArmed true)

/-- Meaning of `CMD_SELF_RESET` (R196). -/
def execCmdSelfReset (p : Port) (s : State) : Host.Outcome State Fault Refusal := onPort p (cmdSelfReset p) s

/-- `CMD_FW_UPDATE` (R197): halts the block; no VDM, no disconnect. -/
def cmdFwUpdate (p : Port) (s : State) : State :=
  raise (.operatorFatal .fwUpdate) ((diag p (disarmEscape p s)).setHalt .fwUpdate)

/-- Meaning of `CMD_FW_UPDATE` (R197). -/
def execCmdFwUpdate (p : Port) (s : State) : Host.Outcome State Fault Refusal := onPort p (cmdFwUpdate p) s

/-- `CMD_FORCE_DISCONNECT` (R198): marks pending, runs the disconnect. -/
def cmdForceDisconnect (p : Port) (s : State) : State :=
  disconnect p (setPending p (diag p (disarmEscape p s)))

/-- Meaning of `CMD_FORCE_DISCONNECT` (R198). -/
def execCmdForceDisconnect (p : Port) (s : State) : Host.Outcome State Fault Refusal := onPort p (cmdForceDisconnect p) s

/-- `CMD_TOGGLE_VERBOSE` (R199). Its optional `DIAG` lines stand before the toggle, by the verbosity before it, and after it,
by the one it left (R205, R267, assumption log 7). -/
def cmdToggleVerbose (p : Port) (s : State) : State := diag p (toggleVerbose p (diag p (disarmEscape p s)))

/-- Meaning of `CMD_TOGGLE_VERBOSE` (R199). -/
def execCmdToggleVerbose (p : Port) (s : State) : Host.Outcome State Fault Refusal := onPort p (cmdToggleVerbose p) s

/-- `CMD_DEBUG_PROBE` (R200). -/
def cmdDebugProbe (p : Port) (s : State) : State := txProbe p (diag p (disarmEscape p s))

/-- Meaning of `CMD_DEBUG_PROBE` (R200). -/
def execCmdDebugProbe (p : Port) (s : State) : Host.Outcome State Fault Refusal := onPort p (cmdDebugProbe p) s

/-- Select a route and ask the target to reset its PD logic (R201, R202); the routing outputs do not change here. -/
def selectRoute (p : Port) (r : Route) (s : State) : State :=
  txVdmPdReset p ((diag p (disarmEscape p s)).updRegs p fun x => { x with route := r })

/-- `CMD_ROUTE_1` (R201): the route of key 0x31 (R103). -/
def cmdRoute1 (p : Port) (s : State) : State := selectRoute p s.cfg.routeOfKey1 s

/-- Meaning of `CMD_ROUTE_1` (R201). -/
def execCmdRoute1 (p : Port) (s : State) : Host.Outcome State Fault Refusal := onPort p (cmdRoute1 p) s

/-- `CMD_ROUTE_2` (R202): the route of key 0x32 (R103). -/
def cmdRoute2 (p : Port) (s : State) : State := selectRoute p s.cfg.routeOfKey2 s

/-- Meaning of `CMD_ROUTE_2` (R202). -/
def execCmdRoute2 (p : Port) (s : State) : Host.Outcome State Fault Refusal := onPort p (cmdRoute2 p) s

/-- The status the help print lists: every configured port and whether it is present (R203, R261). -/
def helpEntries (s : State) : List (Port × Bool) := Port.all.map fun q => (q, (s.regs q).present)

/-- `CMD_HELP` (R203). -/
def cmdHelp (p : Port) (s : State) : State :=
  let s := diag p (disarmEscape p s)
  logLine p (.help (helpEntries s)) s

/-- Meaning of `CMD_HELP` (R203). -/
def execCmdHelp (p : Port) (s : State) : Host.Outcome State Fault Refusal := onPort p (cmdHelp p) s

/-- `CMD_DROP` (R204): nothing but the disarming. -/
def cmdDrop (p : Port) (_b : Byte) (s : State) : State := diag p (disarmEscape p s)

/-- Meaning of `CMD_DROP` (R204). -/
def execCmdDrop (p : Port) (b : Byte) (s : State) : Host.Outcome State Fault Refusal := onPort p (cmdDrop p b) s

/-- `BREAK_BEGIN` (R206): the line break is asserted; the hint is ignored (D40). -/
def breakBegin (p : Port) (_hint : Nat) (s : State) : State := outWrite p (.uartBreak true) (diag p s)

/-- Meaning of `BREAK_BEGIN` (R206). -/
def execBreakBegin (p : Port) (hint : Nat) (s : State) : Host.Outcome State Fault Refusal := onPort p (breakBegin p hint) s

/-- `BREAK_END` (R207). -/
def breakEnd (p : Port) (_hint : Nat) (s : State) : State := outWrite p (.uartBreak false) (diag p s)

/-- Meaning of `BREAK_END` (R207). -/
def execBreakEnd (p : Port) (hint : Nat) (s : State) : Host.Outcome State Fault Refusal := onPort p (breakEnd p hint) s

/-- Meaning of `UART_RX_IRQ` (R208): the received byte goes into the ring; ignored where the interrupt is not enabled
(R250, 93 U18). -/
def execUartRxIrq (p : Port) (b : Byte) (s : State) : Host.Outcome State Fault Refusal := .next (uartReceive p b s)

/-- Meaning of `RING_PUT` (R209). -/
def execRingPut (p : Port) (b : Byte) (s : State) : Host.Outcome State Fault Refusal := onPortIrq p (ringPut p b) s

/-- `RING_GET` as an operation (R210): the returned byte stands in the model's return slot (assumption log 29); its optional
`DIAG` lines follow the interrupt-disable section (R267, assumption log 7). -/
def ringGetOp (p : Port) (s : State) : State :=
  let x := ringGet p s
  diag p (x.2.setRet x.1)

/-- Meaning of `RING_GET` (R210). -/
def execRingGet (p : Port) (s : State) : Host.Outcome State Fault Refusal := onPort p (ringGetOp p) s

/-- The drain loop of `DRAIN_TO_HOST` (R211), at most `n` bytes: each byte is taken from the ring and sent verbatim, and
the `DIAG` lines of each `RING_GET` follow its section (R267). -/
def drainRing (p : Port) : Nat → State → State
  | 0, s => s
  | n + 1, s =>
    match ringGet p (point s) with
    | (none, t) => diag p t
    | (some b, t) => drainRing p n (hostSend p (.host p b) (diag p t))

/-- `DRAIN_TO_HOST` (R211): until the ring is empty, bytes put meanwhile included (assumption log 23). -/
def drainToHost (p : Port) (s : State) : State :=
  let s := diag p s
  drainRing p (ringSlots s.cfg + schedWeight s + 1) s

/-- Meaning of `DRAIN_TO_HOST` (R211). -/
def execDrainToHost (p : Port) (s : State) : Host.Outcome State Fault Refusal := onPort p (drainToHost p) s

/-- The operation of a decoded byte (R92, R93). -/
def runByteOp (p : Port) (o : ByteOp) (s : State) : State :=
  match o with
  | .pass b => pass p b s
  | .escArm => escArm p s
  | .escLiteral => escLiteral p s
  | .cmdRebootTarget => cmdRebootTarget p s
  | .cmdSelfReset => cmdSelfReset p s
  | .cmdFwUpdate => cmdFwUpdate p s
  | .cmdForceDisconnect => cmdForceDisconnect p s
  | .cmdToggleVerbose => cmdToggleVerbose p s
  | .cmdDebugProbe => cmdDebugProbe p s
  | .cmdRoute1 => cmdRoute1 p s
  | .cmdRoute2 => cmdRoute2 p s
  | .cmdHelp => cmdHelp p s
  | .cmdDrop b => cmdDrop p b s

/-- `MUX_BYTE` (R190): the byte is decoded with the mode bit and its operation runs. -/
def muxByte (p : Port) (b : Byte) (s : State) : State := runByteOp p (decodeByte (s.regs p).esc b) s

/-- The byte loop of `MUX_PUMP` (R190), at most `n` bytes: until `none`, then the ring is drained; a halt returns at once,
before the next byte (R226). -/
def pumpLoop (p : Port) : Nat → State → State
  | 0, s => s
  | n + 1, s =>
    match hostTryRecv p (point s) with
    | (none, t) => drainToHost p t
    | (some b, t) =>
      let u := muxByte p b t
      if running u then pumpLoop p n u else u

/-- `MUX_PUMP` (R190): the bound is what is queued and what the schedule can still deliver (assumption log 23). -/
def muxPump (p : Port) (s : State) : State :=
  pumpLoop p ((s.env p).host.length + schedWeight s + 1) s

/-- Meaning of `MUX_PUMP` (R190). -/
def execMuxPump (p : Port) (s : State) : Host.Outcome State Fault Refusal := onPort p (muxPump p) s

end Sys2Proof.Machine
end

