-- ==== Sys2Proof/Machine/RunLoop.lean ====
section
/-! DEFINITION. The run loop (44_run_loop.md R220 to R228), the device reset (60_exceptions.md R265) and how `MAIN`
selects its next operation. -/

namespace Sys2Proof.Machine

/-- The position after the turn of a port: the next port, then the transport call (R220, R221). -/
def afterTurn : Port → MainPos
  | .p0 => .turn .p1
  | .p1 => .transport

/-- Where every pass starts (R46). -/
def passStart : MainPos := .turn .p0

/-- `MAIN_ENTRY` (R228): globals, then `SETUP` in index order, then the loop. -/
def mainEntry (s : State) : State :=
  let s := (s.setWdogArmed false).setHalt .running
  let s := setup .p1 (setup .p0 s)
  s.setPos passStart

/-- Meaning of `MAIN_ENTRY` (R228); it runs once after a device reset, so a second `SETUP` is refused (93 U17). -/
def execMainEntry (s : State) : Host.Outcome State Fault Refusal :=
  if (s.regs .p0).setUp || (s.regs .p1).setUp then .refused .setUpTwice else stallOutcome (mainEntry s)

/-- A break call delivered by the transport (R206, R207); ignored for a port that is not live (93 U18). -/
def deliverBreak (c : BreakCall) (s : State) : State :=
  if s.live c.port then
    if c.begins then breakBegin c.port c.hint s else breakEnd c.port c.hint s
  else s

/-- The break calls the transport has to deliver, oldest first, at most `n`. -/
def deliverCalls : Nat → State → State
  | 0, s => s
  | n + 1, s =>
    if s.resetReq.isSome then s
    else match s.calls with
      | [] => s
      | c :: rest => deliverCalls n (deliverBreak c (s.setCalls rest))

/-- `TRANSPORT_SERVICE` (R224): the transport's own work, during which the environment may deliver bytes, change the
connectivity and make break calls. -/
def transportService (s : State) : State :=
  let s := point s
  deliverCalls (s.calls.length + schedWeight s) s

/-- Meaning of `TRANSPORT_SERVICE` (R224). -/
def execTransportService (s : State) : Host.Outcome State Fault Refusal := stallOutcome (transportService s)

/-- `IDLE_WAIT` (R222): an enabled interrupt ends it, one that came between the test and the wait at once (D34); with
none the block stays. It writes no field of the spec. -/
def idleWait (s : State) : State :=
  let s := point s
  if s.wake then (s.setWake false).setPos passStart else s.setPos .idle

/-- Meaning of `IDLE_WAIT` (R222). -/
def execIdleWait (s : State) : Host.Outcome State Fault Refusal := .next (idleWait s)

/-- The test at the end of a pass (R220): idle unless a present port is pending. -/
def idleTest (s : State) : State :=
  let s := point s
  (s.setWake false).setPos (if anyPending s then passStart else .idle)

/-- The turn of a port up to its multiplexer (R220): the atomic test-and-clear of the flag, before the service. -/
def takePending (p : Port) (s : State) : Bool × State :=
  let s := point s
  ((s.shared p).pending, (clearPending p s).setPos (.pump p))

/-- The part of `RUN_PASS` for one port (R220): an absent port is skipped. -/
def portPass (p : Port) (s : State) : State :=
  if s.live p then
    let x := takePending p s
    let t := muxPump p (if x.1 then service p x.2 else x.2)
    if running t then t.setPos (afterTurn p) else t
  else s.setPos (afterTurn p)

/-- The end of `RUN_PASS` (R220): the transport call, the idle test and the idle wait. -/
def endPass (s : State) : State :=
  let s := idleTest (transportService (s.setPos .idleTest))
  if s.pos = .idle then idleWait s else s

/-- `RUN_PASS` (R220): the ports in index order, stopping at a halt (R226). -/
def runPass (s : State) : State :=
  let s := portPass .p0 s
  if running s then
    let s := portPass .p1 s
    if running s then endPass s else s
  else s

/-- Meaning of `RUN_PASS` (R220): refused before both `SETUP`s (R281). -/
def execRunPass (s : State) : Host.Outcome State Fault Refusal :=
  if (s.regs .p0).setUp && (s.regs .p1).setUp then stallOutcome (runPass s) else .refused .notSetUp

/-- Meaning of `DEVICE_RESET` (R265): from power-on at any time, from the watchdog only while it is armed, else nothing
happens (assumption log 18). -/
def execDeviceReset (c : ResetCause) (s : State) : Host.Outcome State Fault Refusal :=
  if resetEnabled s c then .next (resetDevice s) else .next s

/-! ## What MAIN does next -/

/-- The next operation of `MAIN` and the state it runs in, by the run loop position (R46(b), R220, R228), or none where
the step is only a test: after a halt (R226), an absent or a non-pending port's turn, the idle test. -/
def fetch (s : State) : Option Instr × State :=
  if s.resetReq.isSome then (none, s)
  else if !running s then (none, point s)
  else match s.pos with
    | .entry => (some .mainEntry, s)
    | .turn p =>
      if s.live p then
        let x := takePending p s
        (if x.1 then some (.service p) else none, x.2)
      else (none, s.setPos (afterTurn p))
    | .pump p =>
      if s.live p then
        match hostTryRecv p (point s) with
        | (some b, t) => (some ((decodeByte (t.regs p).esc b).instr p), t)
        | (none, t) => (some (.drainToHost p), t.setPos (afterTurn p))
      else (none, s.setPos (afterTurn p))
    | .transport => (some .transportService, s.setPos .idleTest)
    | .idleTest => (none, idleTest s)
    | .idle => (some .idleWait, s)

/-- A device reset that landed inside the step is taken at its end (R227). -/
def settleOutcome : Host.Outcome State Fault Refusal → Host.Outcome State Fault Refusal
  | .next s => .next (settle s)
  | .fault r => .fault r
  | .refused r => .refused r

/-- The port a placed word runs on, live, its escape mode and the only byte of its host channel set, `MAIN` about to
read that byte, no move of the environment before it (assumption log 21). -/
def placeUnit (u : Bool × Byte) (s : State) : State :=
  let s := s.updRegs .p0 fun r => { r with setUp := true, present := true, esc := u.1 }
  let s := s.updEnv .p0 fun e => { e with host := [u.2] }
  ((((s.setHalt .running).setPos (.pump .p0)).setSched []).setResetReq none).setStalled none

end Sys2Proof.Machine
end

