-- ==== Sys2Proof/Machine/Dispatch.lean ====
section
/-! DEFINITION. One arm per operation of spec/opcode_table.json, each a direct call of its meaning. -/

namespace Sys2Proof.Machine

/-- The meaning of an operation. -/
def exec (i : Instr) (s : State) : Host.Outcome State Fault Refusal :=
  match i with
  | .setup p => Sys2Proof.Machine.execSetup p s
  | .tick p => Sys2Proof.Machine.execTick p s
  | .pollDisconnected p => Sys2Proof.Machine.execPollDisconnected p s
  | .onAttach p => Sys2Proof.Machine.execOnAttach p s
  | .tickVbusOn p => Sys2Proof.Machine.execTickVbusOn p s
  | .tickReady p => Sys2Proof.Machine.execTickReady p s
  | .debounce p => Sys2Proof.Machine.execDebounce p s
  | .onTxComplete p => Sys2Proof.Machine.execOnTxComplete p s
  | .disconnect p => Sys2Proof.Machine.execDisconnect p s
  | .vbusOff p => Sys2Proof.Machine.execVbusOff p s
  | .onMessage p m => Sys2Proof.Machine.execOnMessage p m s
  | .rxSourceCap p m => Sys2Proof.Machine.execRxSourceCap p m s
  | .rxRequest p m => Sys2Proof.Machine.execRxRequest p m s
  | .rxVdm p m => Sys2Proof.Machine.execRxVdm p m s
  | .rxPrSwap p m => Sys2Proof.Machine.execRxPrSwap p m s
  | .rxDrSwap p m => Sys2Proof.Machine.execRxDrSwap p m s
  | .rxGetSinkCap p m => Sys2Proof.Machine.execRxGetSinkCap p m s
  | .rxEmpty p m => Sys2Proof.Machine.execRxEmpty p m s
  | .rxOther p m => Sys2Proof.Machine.execRxOther p m s
  | .vdmDiscoverIdentityReq p m => Sys2Proof.Machine.execVdmDiscoverIdentityReq p m s
  | .vdmDiscoverIdentityAck p m => Sys2Proof.Machine.execVdmDiscoverIdentityAck p m s
  | .vdmOther p m => Sys2Proof.Machine.execVdmOther p m s
  | .txSourceCap p => Sys2Proof.Machine.execTxSourceCap p s
  | .txRequest p => Sys2Proof.Machine.execTxRequest p s
  | .txAccept p => Sys2Proof.Machine.execTxAccept p s
  | .txReject p => Sys2Proof.Machine.execTxReject p s
  | .txPsRdy p => Sys2Proof.Machine.execTxPsRdy p s
  | .txSinkCap p => Sys2Proof.Machine.execTxSinkCap p s
  | .txProbe p => Sys2Proof.Machine.execTxProbe p s
  | .txIdentityAck p => Sys2Proof.Machine.execTxIdentityAck p s
  | .txVdmReboot p => Sys2Proof.Machine.execTxVdmReboot p s
  | .txVdmDfuHold p => Sys2Proof.Machine.execTxVdmDfuHold p s
  | .txVdmPdReset p => Sys2Proof.Machine.execTxVdmPdReset p s
  | .txVdmSerialRoute p => Sys2Proof.Machine.execTxVdmSerialRoute p s
  | .irqHandler => Sys2Proof.Machine.execIrqHandler s
  | .service p => Sys2Proof.Machine.execService p s
  | .evVbusGood p => Sys2Proof.Machine.execEvVbusGood p s
  | .evHardReset p => Sys2Proof.Machine.execEvHardReset p s
  | .evTxSuccess p => Sys2Proof.Machine.execEvTxSuccess p s
  | .evMsgRx p => Sys2Proof.Machine.execEvMsgRx p s
  | .rearm p => Sys2Proof.Machine.execRearm p s
  | .muxPump p => Sys2Proof.Machine.execMuxPump p s
  | .pass p b => Sys2Proof.Machine.execPass p b s
  | .escArm p => Sys2Proof.Machine.execEscArm p s
  | .escLiteral p => Sys2Proof.Machine.execEscLiteral p s
  | .cmdRebootTarget p => Sys2Proof.Machine.execCmdRebootTarget p s
  | .cmdSelfReset p => Sys2Proof.Machine.execCmdSelfReset p s
  | .cmdFwUpdate p => Sys2Proof.Machine.execCmdFwUpdate p s
  | .cmdForceDisconnect p => Sys2Proof.Machine.execCmdForceDisconnect p s
  | .cmdToggleVerbose p => Sys2Proof.Machine.execCmdToggleVerbose p s
  | .cmdDebugProbe p => Sys2Proof.Machine.execCmdDebugProbe p s
  | .cmdRoute1 p => Sys2Proof.Machine.execCmdRoute1 p s
  | .cmdRoute2 p => Sys2Proof.Machine.execCmdRoute2 p s
  | .cmdHelp p => Sys2Proof.Machine.execCmdHelp p s
  | .cmdDrop p b => Sys2Proof.Machine.execCmdDrop p b s
  | .breakBegin p hint => Sys2Proof.Machine.execBreakBegin p hint s
  | .breakEnd p hint => Sys2Proof.Machine.execBreakEnd p hint s
  | .uartRxIrq p b => Sys2Proof.Machine.execUartRxIrq p b s
  | .ringPut p b => Sys2Proof.Machine.execRingPut p b s
  | .ringGet p => Sys2Proof.Machine.execRingGet p s
  | .drainToHost p => Sys2Proof.Machine.execDrainToHost p s
  | .mainEntry => Sys2Proof.Machine.execMainEntry s
  | .runPass => Sys2Proof.Machine.execRunPass s
  | .transportService => Sys2Proof.Machine.execTransportService s
  | .idleWait => Sys2Proof.Machine.execIdleWait s
  | .deviceReset c => Sys2Proof.Machine.execDeviceReset c s

end Sys2Proof.Machine
end

