-- ==== Sys2Proof/Machine/Step.lean ====
section
/-! DEFINITION. One step of the machine: `MAIN` selects its next operation by the run loop position and runs it; a
device reset that landed inside the step is taken at its end. -/

namespace Sys2Proof.Machine

/-- One step. The environment's moves and the handlers are inside it, at its interrupt points. -/
def step (s : State) : Host.Outcome State Fault Refusal :=
  match fetch s with
  | (none, t) => settleOutcome (.next t)
  | (some i, t) => settleOutcome (exec i t)

/-- `s` with the unit a word stands for placed where `MAIN` reads its next host byte (assumption log 2 and 21). -/
def State.withFetchWord (s : State) (nbits w : Nat) : State := placeUnit (wordUnit nbits w) s

end Sys2Proof.Machine
end

