-- ==== Sys2Proof/Safety.lean ====
section
/-! DEFINITION. The terms in which claims about the PD core are stated: a quiet environment, what an operation keeps, what
it adds to the outward trace, the invariants of 10_state.md R51, and the scanner of 43_multiplexer.md R216. -/

namespace Sys2Proof.Machine

/-- A still environment: no move is scheduled, no device reset was requested, and no armed line is active. Nothing then
lands inside an operation. -/
def Still (s : State) : Prop := s.sched = [] ∧ s.resetReq = none ∧ ∀ p, irqReady s p = false

/-- After the moves `ms`, whether the host of port `p` takes what is sent to it or is disconnected, if before them its
connectivity and its readiness are `c` and `b`. -/
def takesAfter (p : Port) (c b : Bool) : List EnvMove → Bool
  | [] => !c || b
  | .connect q x :: ms => takesAfter p (if q = p then x else c) b ms
  | .takes q x :: ms => takesAfter p c (if q = p then x else b) ms
  | _ :: ms => takesAfter p c b ms

/-- The environment does its duty toward `HostSend` on port `p` (R229): however the host pauses meanwhile, at the end of the
schedule it takes what is sent or is disconnected; and `MAIN` is not stuck already. -/
def HostTakes (p : Port) (s : State) : Prop :=
  s.stalled = none ∧ takesAfter p (s.env p).connected (s.env p).takes s.sched.flatten = true

/-- A quiet environment: still, and each host takes what is sent to it or is disconnected (R229). -/
def Quiet (s : State) : Prop := Still s ∧ ∀ p, HostTakes p s

/-- Every field that only `MAIN` writes is as before, for both ports (R72): parameters, `P[q]`, `Out[q]`, the globals, the
run loop position and the return slot. It does not speak of what a handler or the environment writes. -/
structure MainKept (s t : State) : Prop where
  cfg : t.cfg = s.cfg
  regs : ∀ q, t.regs q = s.regs q
  out : ∀ q, t.out q = s.out q
  wdogArmed : t.wdogArmed = s.wdogArmed
  halt : t.halt = s.halt
  pos : t.pos = s.pos
  ret : t.ret = s.ret

/-- As `MainKept`, but for `P[p]` and `Out[p]` of the one port `p`. -/
structure OthersKept (p : Port) (s t : State) : Prop where
  cfg : t.cfg = s.cfg
  regs : ∀ q, q ≠ p → t.regs q = s.regs q
  out : ∀ q, q ≠ p → t.out q = s.out q
  wdogArmed : t.wdogArmed = s.wdogArmed
  halt : t.halt = s.halt
  pos : t.pos = s.pos
  ret : t.ret = s.ret

/-- Everything a handler or the environment writes is as before: pending flags, line masks, rings, levels, queues, the
connectivity, and every byte of every transceiver register space. -/
structure BoundaryKept (s t : State) : Prop where
  shared : ∀ q, t.shared q = s.shared q
  env : ∀ q, t.env q = s.env q
  registers : ∀ q a, readReg (t.env q).tcpc a = readReg (s.env q).tcpc a
  calls : t.calls = s.calls
  sched : t.sched = s.sched
  resetReq : t.resetReq = s.resetReq
  wake : t.wake = s.wake

/-- As `BoundaryKept`, but for the shared fields (pending flag, line mask, ring) of the one port `p`. -/
structure BoundaryKeptBut (p : Port) (s t : State) : Prop where
  shared : ∀ q, q ≠ p → t.shared q = s.shared q
  env : ∀ q, t.env q = s.env q
  registers : ∀ q a, readReg (t.env q).tcpc a = readReg (s.env q).tcpc a
  calls : t.calls = s.calls
  sched : t.sched = s.sched
  resetReq : t.resetReq = s.resetReq
  wake : t.wake = s.wake

/-- The named events that `t` has beyond `s` are exactly `es`, in this order; optional log lines of class `VERBOSE` are not
counted (R267). -/
def Adds (s t : State) (es : List Event) : Prop := namedTrace t.trace = namedTrace s.trace ++ es

/-- The message `m` is the one `Tx` builds for a class and objects (R149): numeric type, object list, revision, and source
and DFP roles once the header role is set; the roles are free while it is unset (R149(a)). -/
def TxMessage (s : State) (p : Port) (c : MsgCode) (objs : Objs) (m : Msg) : Prop :=
  m.type = s.cfg.msgCodes.get c ∧ m.obj = objs ∧ m.rev = s.cfg.specRev ∧
    ((s.out p).hdrRole = .source → m.prole = .source ∧ m.drole = .dfp)

/-- `P[p]` after `DISCONNECT` (R129). -/
def disconnectedRegs (r : PortRegs) : PortRegs := { r with deb := 0, sct := 0, ps := .disconnected }

/-- `Out[p]` after `DISCONNECT` (R129). -/
def disconnectedOut (o : Outputs) : Outputs :=
  { o with vbus := .released, vconn := false, rxEn := false, ccRole := .srcPlain }

/-- What `DISCONNECT` emits (R129, R130, R72). -/
def disconnectEvents (p : Port) : List Event :=
  [.out p (.vbus .offDriven), .delay p .vbusSettle, .out p (.vbus .released), .out p (.vconn false),
    .out p (.rxEn false), .out p (.ccRole .srcPlain)]

/-- An operation that only transmits (R149): it completes, keeps every field that `MAIN` owns, and in a quiet environment
changes nothing at the boundary but one transmission of kind `k`, class `c` and objects `objs`. -/
def TransmitsOnly (i : Instr) (p : Port) (s : State) (k : TxKind) (c : MsgCode) (objs : Objs) : Prop :=
  ∃ t, exec i s = .next t ∧ MainKept s t ∧
    (Quiet s → BoundaryKept s t ∧ ∃ m, TxMessage s p c objs m ∧ Adds s t [.tx p k m])

/-- As `TransmitsOnly`, for an operation that also leaves `P[p]` as `r`. -/
def TransmitsAndSets (i : Instr) (p : Port) (s : State) (r : PortRegs) (k : TxKind) (c : MsgCode) (objs : Objs) : Prop :=
  ∃ t, exec i s = .next t ∧ OthersKept p s t ∧ t.regs p = r ∧ t.out p = s.out p ∧
    (Quiet s → BoundaryKept s t ∧ ∃ m, TxMessage s p c objs m ∧ Adds s t [.tx p k m])

/-- `P[p]` after an attach with the CC pair `cc` (R123). -/
def attachedRegs (cc : Nat × Nat) (r : PortRegs) : PortRegs := { r with pol := selectPolarity cc, ps := .dfpVbusOn }

/-- `Out[p]` after an attach with the CC pair `cc` (R123). -/
def attachedOut (cc : Nat × Nat) (o : Outputs) : Outputs :=
  { o with
    hdrRole := .source, vconn := wantVconn cc, chipPol := chipPolOf (selectPolarity cc), rxEn := true, vbus := .on }

/-- What an attach emits before its probe (R123, R72). -/
def attachEvents (p : Port) (cc : Nat × Nat) : List Event :=
  [.tcpcReset p, .out p (.hdrRole .source), .out p (.vconn false),
      .out p (.chipPol (chipPolOf (selectPolarity cc)))] ++
    (if wantVconn cc then [.out p (.vconn true)] else []) ++ [.out p (.rxEn true), .out p (.vbus .on)]

/-- What a PD reset of the chip leaves at the boundary of port `p` (R285): the queue the environment holds ready, the three
status registers rewritten, everything else of both ports' environments as before. -/
structure ChipReset (p : Port) (s t : State) : Prop where
  other : ∀ q, q ≠ p → t.env q = s.env q
  own : t.env p = { s.env p with rx := (s.env p).afterResetRx, tcpc := (t.env p).tcpc }
  registers : ∀ a, a ≠ s.cfg.intStatusAddrA → a ≠ s.cfg.intStatusAddrB → a ≠ s.cfg.intStatusAddrC →
    readReg (t.env p).tcpc a = readReg (s.env p).tcpc a
  calls : t.calls = s.calls
  sched : t.sched = s.sched
  resetReq : t.resetReq = s.resetReq
  wake : t.wake = s.wake

/-- `t` is `s` after an attach of port `p` with the CC pair `cc` in a quiet environment (R123, R285): the registers and
outputs, the chip's PD reset, and the probe. -/
def Attached (p : Port) (cc : Nat × Nat) (s t : State) : Prop :=
  OthersKept p s t ∧ t.regs p = attachedRegs cc (s.regs p) ∧ t.out p = attachedOut cc (s.out p) ∧
    (∀ q, t.shared q = s.shared q) ∧ ChipReset p s t ∧
    ∃ m, m.type = s.cfg.msgCodes.get s.cfg.probeCode ∧ m.obj = s.cfg.probeObjs ∧ m.rev = s.cfg.specRev ∧
      m.prole = .source ∧ m.drole = .dfp ∧ Adds s t (attachEvents p cc ++ [.tx p .probe m])

/-- `P[p]` after a debounce check (R127): `low` says that both lines read below the threshold. -/
def debouncedRegs (low : Bool) (r : PortRegs) : PortRegs :=
  if low then
    if r.deb + 1 > Config.debounceLimit then disconnectedRegs r else { r with deb := r.deb + 1 }
  else { r with deb := 0 }

/-- `Out[p]` after a debounce check (R127). -/
def debouncedOut (low : Bool) (r : PortRegs) (o : Outputs) : Outputs :=
  if low ∧ r.deb + 1 > Config.debounceLimit then disconnectedOut o else o

/-- What a debounce check emits (R127). -/
def debounceEvents (p : Port) (low : Bool) (r : PortRegs) : List Event :=
  if low ∧ r.deb + 1 > Config.debounceLimit then disconnectEvents p else []

/-- `P[p]` after the state's own step of a tick that neither polls nor attaches (R124, R125, R126). -/
def tickedRegs (r : PortRegs) : PortRegs :=
  match r.ps with
  | .dfpVbusOn => { r with sct := if r.sct + 1 > Config.srcCapRetry then 0 else r.sct + 1 }
  | .ready => { r with ps := .idle }
  | .disconnected | .connected | .dfpConnected | .dfpAccept | .idle => r

/-- `P[p]` after `SETUP` of a port that passed both validations (R52). -/
def setUpRegs (c : Params) : PortRegs where
  present := true
  ps := .disconnected
  pol := .cc1
  route := .primaryUsb
  deb := 0
  sct := 0
  esc := false
  verbose := c.verboseReset
  setUp := true

/-- `Out[p]` after `SETUP` of a port that passed both validations (R52). -/
def setUpOut (c : Params) : Outputs where
  vbus := .released
  vconn := false
  rxEn := false
  ccRole := .srcSeek
  chipPol := .unset
  hdrRole := .unset
  laneSwap := false
  srcSel := .usbPins
  indicator := c.indicatorLevel
  uartBreak := false
  attachIrqArmed := true

/-- What every `SETUP` emits first (R121, R130). -/
def setupSideEffects (c : Params) (p : Port) : List Event :=
  [.out p (.indicator c.indicatorLevel), .out p (.vbus .offDriven), .delay p .vbusSettle, .out p (.vbus .released)]

/-- What `SETUP` of a port that passed both validations emits (R121). -/
def setupEvents (c : Params) (p : Port) : List Event :=
  setupSideEffects c p ++
    [.tcpcReset p, .out p (.rxEn false), .out p (.ccRole .srcSeek), .out p (.laneSwap false),
      .out p (.srcSel .usbPins), .out p (.vconn false), .out p (.chipPol .unset), .out p (.hdrRole .unset),
      .out p (.uartBreak false), .out p (.attachIrqArmed true)]

/-- Both validations of `SETUP` pass on port `p` (R121). -/
def passesSetup (s : State) (p : Port) : Prop :=
  (s.env p).busHeldLow = false ∧ idValid s.cfg (readReg (s.env p).tcpc s.cfg.idRegAddr) = true

/-- Which validation of `SETUP` fails on port `p`, the bus lines first (R121(b)). -/
def absenceCause (s : State) (p : Port) : AbsenceCause := if (s.env p).busHeldLow then .busLow else .badId

/-! ## Handlers and sequences -/

/-- `t` is `s` after one run of the chip-interrupt handler for port `p` (R171, R253): the flag set, the line masked, the
idle wait ended, nothing else changed. -/
structure IrqTaken (p : Port) (s t : State) : Prop where
  main : MainKept s t
  own : t.shared p = { s.shared p with pending := true, irqEn := false }
  other : ∀ q, q ≠ p → t.shared q = s.shared q
  env : ∀ q, t.env q = s.env q
  registers : ∀ q a, readReg (t.env q).tcpc a = readReg (s.env q).tcpc a
  calls : t.calls = s.calls
  sched : t.sched = s.sched
  resetReq : t.resetReq = s.resetReq
  wake : t.wake = true
  trace : t.trace = s.trace

/-- The operations of a list one after the other, stopping at the first that does not answer a next state. -/
def execAll : List Instr → State → Host.Outcome State Fault Refusal
  | [], s => .next s
  | i :: is, s =>
    match exec i s with
    | .next t => execAll is t
    | .fault r => .fault r
    | .refused r => .refused r

/-- Taking the oldest record of the receive queue of port `p` leaves `rest` there. -/
def withRx (p : Port) (rest : List RxRecord) (s : State) : State := s.updEnv p fun e => { e with rx := rest }

/-- The records `rs` are handled one after the other, oldest first, each popped before it is handled (R176(a)). -/
def Drains (p : Port) : List RxRecord → State → State → Prop
  | [], s, t => t = s
  | r :: rs, s, t => ∃ v, exec (.onMessage p r) (withRx p rs s) = .next v ∧ Drains p rs v t

/-- The host bytes `bs` are pumped (R190): each is decoded with the mode bit and removed before its operation runs; a halt
stops the pump before the next byte (R226), otherwise the ring is drained at the end. `is` are the byte operations. -/
def Pumps (p : Port) : List Byte → List Instr → State → State → Prop
  | [], is, s, t => is = [] ∧ exec (.drainToHost p) s = .next t
  | b :: bs, is, s, t => ∃ is' u, is = (decodeByte (s.regs p).esc b).instr p :: is' ∧
      exec ((decodeByte (s.regs p).esc b).instr p) (s.updEnv p fun e => { e with host := bs }) = .next u ∧
      if running u then Pumps p bs is' u t else is' = [] ∧ t = u

/-- `t` stands where a pass ends: at the start of the next one, in the idle wait, or halted (R220, R226). -/
def AtPassEnd (t : State) : Prop := t.pos = .turn .p0 ∨ t.pos = .idle ∨ running t = false

/-- The machine's own steps from `s` make exactly one pass, which ends in `t` (R220): at least one step; between, the block
runs and is at no pass start, and it is in the idle wait only right before the last step, which is that wait. -/
def OnePass (s t : State) : Prop :=
  ∃ k, 0 < k ∧ Host.Core.run core k s = .next t ∧ AtPassEnd t ∧
    (∀ j, 0 < j → j < k → ∃ u, Host.Core.run core j s = .next u ∧ running u = true ∧ u.pos ≠ .turn .p0 ∧
      (u.pos = .idle → j + 1 = k)) ∧
    (t.pos = .idle → running t = true → ∃ u, Host.Core.run core (k - 1) s = .next u ∧ u.pos = .idle)

/-! ## Invariants (R51) -/

/-- The invariants of R51 for one port between operations. Before `SETUP` no interrupt of the port is enabled (R281); after
it: (I-2) and (I-3) and the settled VBUS output, (I-4), (I-5) as well-formed cursors, (I-6), (I-7), and an absent port
has no armed line and nothing pending (R29, R52). (I-5), (I-6) and (I-7) hold inside the operations too: the two routing
outputs change at once (`outWritePair`). -/
structure PortInv (s : State) (p : Port) : Prop where
  beforeSetUp : (s.regs p).setUp = false → (s.shared p).irqEn = false
  absentInert : (s.regs p).setUp = true → (s.regs p).present = false →
    (s.shared p).irqEn = false ∧ (s.shared p).pending = false
  vbusSettled : (s.regs p).setUp = true → (s.out p).vbus ≠ .offDriven
  vbusOn : (s.regs p).setUp = true → (s.out p).vbus = .on →
    (s.regs p).present = true ∧ (s.regs p).ps ≠ .disconnected
  atRest : s.live p = true → (s.regs p).ps = .disconnected →
    (s.out p).vbus = .released ∧ (s.out p).vconn = false ∧ (s.out p).rxEn = false ∧
      (s.regs p).deb = 0 ∧ (s.regs p).sct = 0
  counters : s.live p = true → (s.regs p).deb ≤ Config.debounceLimit ∧ (s.regs p).sct ≤ Config.srcCapRetry
  ring : s.live p = true → (s.shared p).ring.wf (ringSlots s.cfg) = true
  laneSwap : s.live p = true → (s.out p).laneSwap = true → (s.out p).srcSel = .sbuPins
  neverConnected : s.live p = true → (s.regs p).ps ≠ .connected
  memory : Memory.wf (s.env p).tcpc = true

/-- The machine's invariant: the parameters meet the constraints of R9, and that of both ports. -/
def Inv (s : State) : Prop := paramsOk s.cfg = true ∧ ∀ p, PortInv s p

/-! ## Safe runs -/

/-- No scheduled move is a device reset. -/
def NoResetMoves (s : State) : Prop := ∀ ms ∈ s.sched, ∀ c, EnvMove.reset c ∉ ms

/-- A set-up device: `SETUP` has returned for both ports (R281). -/
def DeviceUp (s : State) : Prop := ∀ p, (s.regs p).setUp = true

/-- Where a run stands with respect to `SETUP` (R228, R280, R281): before `MAIN_ENTRY` no port is set up, after it every
port is. -/
def Started (s : State) : Prop := (s.pos = .entry → ∀ p, (s.regs p).setUp = false) ∧ (s.pos ≠ .entry → DeviceUp s)

/-- The port an operation acts on, if it acts on one. -/
def instrPort : Instr → Option Port
  | .setup p | .tick p | .pollDisconnected p | .onAttach p | .tickVbusOn p | .tickReady p | .debounce p
  | .onTxComplete p | .disconnect p | .vbusOff p | .onMessage p _ | .rxSourceCap p _ | .rxRequest p _ | .rxVdm p _
  | .rxPrSwap p _ | .rxDrSwap p _ | .rxGetSinkCap p _ | .rxEmpty p _ | .rxOther p _ | .vdmDiscoverIdentityReq p _
  | .vdmDiscoverIdentityAck p _ | .vdmOther p _ | .txSourceCap p | .txRequest p | .txAccept p | .txReject p
  | .txPsRdy p | .txSinkCap p | .txProbe p | .txIdentityAck p | .txVdmReboot p | .txVdmDfuHold p | .txVdmPdReset p
  | .txVdmSerialRoute p | .service p | .evVbusGood p | .evHardReset p | .evTxSuccess p | .evMsgRx p | .rearm p
  | .muxPump p | .pass p _ | .escArm p | .escLiteral p | .cmdRebootTarget p | .cmdSelfReset p | .cmdFwUpdate p
  | .cmdForceDisconnect p | .cmdToggleVerbose p | .cmdDebugProbe p | .cmdRoute1 p | .cmdRoute2 p | .cmdHelp p
  | .cmdDrop p _ | .breakBegin p _ | .breakEnd p _ | .uartRxIrq p _ | .ringPut p _ | .ringGet p | .drainToHost p =>
    some p
  | .irqHandler | .mainEntry | .runPass | .transportService | .idleWait | .deviceReset _ => none

/-! ## The scanner of R216 -/

/-- What the host byte stream does to a port, byte by byte: the mode, and the bytes that reach the UART (R216). A
firmware-update command ends the scan (R197). -/
def scanUart : Bool → List Byte → List Byte
  | _, [] => []
  | false, b :: bs => if b = 0x1F then scanUart true bs else b :: scanUart false bs
  | true, b :: bs =>
    if b = 0x1F then b :: scanUart false bs
    else if b = 0x1E then []
    else scanUart false bs

/-- The nine command bytes (R93). -/
def commandBytes : List Byte := [0x21, 0x12, 0x1E, 0x18, 0x04, 0x0D, 0x31, 0x32, 0x3F]

/-- The command bytes that a scan issues, in order (R216): the second byte of a unit, if it is a command byte; a
firmware-update command is the last. -/
def scanCommands : Bool → List Byte → List Byte
  | _, [] => []
  | false, b :: bs => if b = 0x1F then scanCommands true bs else scanCommands false bs
  | true, b :: bs =>
    if b = 0x1E then [b]
    else if b ∈ commandBytes then b :: scanCommands false bs
    else scanCommands false bs

/-- The nine command operations (R195 to R203). -/
def isCommand : Instr → Bool
  | .cmdRebootTarget _ | .cmdSelfReset _ | .cmdFwUpdate _ | .cmdForceDisconnect _ | .cmdToggleVerbose _
  | .cmdDebugProbe _ | .cmdRoute1 _ | .cmdRoute2 _ | .cmdHelp _ => true
  | _ => false

/-- Whether a scan reaches a firmware-update command (R197). -/
def scanHalts : Bool → List Byte → Bool
  | _, [] => false
  | false, b :: bs => if b = 0x1F then scanHalts true bs else scanHalts false bs
  | true, b :: bs => if b = 0x1E then true else scanHalts false bs

/-- The mode a scan ends in (R216: a trailing lone escape byte leaves the port armed). -/
def scanMode : Bool → List Byte → Bool
  | m, [] => m
  | false, b :: bs => if b = 0x1F then scanMode true bs else scanMode false bs
  | true, b :: bs => if b = 0x1E then false else scanMode false bs

end Sys2Proof.Machine
end

