-- ==== Sys2Proof/WellFormed.lean ====
section
/-! DEFINITION. When an operation is well formed: its operands are ones its encoding can carry (R92, R93, R98,
R101). Port indices and object counts are in range by their types. -/

namespace Sys2Proof

/-- A byte that `PASS` forwards: any but the escape byte (R192). -/
def wfPassByte (b : Byte) : Bool := b != 0x1F

/-- A byte that `CMD_DROP` drops: none of the ten of R93 (R204). -/
def wfDropByte (b : Byte) : Bool := decodeArmed b == .cmdDrop b

/-- A message of a given class (R98). -/
def wfClass (c : Params) (k : RxClass) (m : Msg) : Bool := classOfMsg c m == k

/-- A record of class `EMPTY` (R98 row 1). -/
def wfEmpty (c : Params) : RxRecord → Bool
  | .garbage => true
  | .message m => wfClass c .empty m

/-- A VDM of a given sub-command class (R100, R101). -/
def wfVdm (c : Params) (k : VdmClass) (m : Msg) : Bool := wfClass c .vendorDefined m && vdmClass c m == k

/-- Well-formedness of an operation under the parameters `c`. -/
def wellFormed (c : Params) : Instr → Bool
  | .pass _ b => wfPassByte b
  | .cmdDrop _ b => wfDropByte b
  | .rxSourceCap _ m => wfClass c .sourceCap m
  | .rxRequest _ m => wfClass c .request m
  | .rxVdm _ m => wfClass c .vendorDefined m
  | .rxPrSwap _ m => wfClass c .prSwap m
  | .rxDrSwap _ m => wfClass c .drSwap m
  | .rxGetSinkCap _ m => wfClass c .getSinkCap m
  | .rxEmpty _ r => wfEmpty c r
  | .rxOther _ m => wfClass c .other m
  | .vdmDiscoverIdentityReq _ m => wfVdm c .discoverIdentityReq m
  | .vdmDiscoverIdentityAck _ m => wfVdm c .discoverIdentityAck m
  | .vdmOther _ m => wfVdm c .other m
  | .setup _ | .tick _ | .pollDisconnected _ | .onAttach _ | .tickVbusOn _ | .tickReady _ | .debounce _
  | .onTxComplete _ | .disconnect _ | .vbusOff _ | .onMessage _ _ | .txSourceCap _ | .txRequest _ | .txAccept _
  | .txReject _ | .txPsRdy _ | .txSinkCap _ | .txProbe _ | .txIdentityAck _ | .txVdmReboot _ | .txVdmDfuHold _
  | .txVdmPdReset _ | .txVdmSerialRoute _ | .irqHandler | .service _ | .evVbusGood _ | .evHardReset _
  | .evTxSuccess _ | .evMsgRx _ | .rearm _ | .muxPump _ | .escArm _ | .escLiteral _ | .cmdRebootTarget _
  | .cmdSelfReset _ | .cmdFwUpdate _ | .cmdForceDisconnect _ | .cmdToggleVerbose _ | .cmdDebugProbe _
  | .cmdRoute1 _ | .cmdRoute2 _ | .cmdHelp _ | .breakBegin _ _ | .breakEnd _ _ | .uartRxIrq _ _ | .ringPut _ _
  | .ringGet _ | .drainToHost _ | .mainEntry | .runPass | .transportService | .idleWait | .deviceReset _ => true

end Sys2Proof
end

