-- ==== Sys2Proof/Certificates/Slice0/Obligations.lean ====
section
/-! DEFINITION. The statements for the provers. A statement about an operation says that it answers a next state, what that
state is in every environment (the fields only `MAIN` writes, spec 20_memory.md R72), and what it is in a quiet one, in
which no handler runs and no input changes inside the operation (the shared flags, the boundary, every byte of every
transceiver register space, and the outward trace). An operation that may write a log line answers a next state when the
environment does its duty toward `HostSend` (R229, 93 U10): the premise `HostTakes`, or `Quiet`, which holds it. -/

open Sys2Proof Sys2Proof.Machine

/-! ## Reset and invariant -/

/-- Right after reset no port is set up, no interrupt line is armed, the watchdog is not armed, the block runs, and
`MAIN_ENTRY` is next (R280, R281). -/
def Obligations.ResetLeavesNothingArmed : Prop :=
  State.reset.wdogArmed = false ∧ State.reset.halt = .running ∧ State.reset.pos = .entry ∧
    fetch State.reset = (some .mainEntry, State.reset) ∧
    ∀ p, (State.reset.regs p).setUp = false ∧ (State.reset.shared p).irqEn = false

/-- The invariants of R51 hold right after reset, and the parameters the machine starts with meet the constraints of R9. -/
def Obligations.InvariantHoldsAtReset : Prop := Inv State.reset ∧ Started State.reset

/-- Every step keeps the invariants of R51 and the constraints of R9, whatever the environment does inside it. -/
def Obligations.StepKeepsInvariant : Prop := ∀ s t : State, Inv s → step s = .next t → Inv t

/-- No step stops but in a `HostSend` that no one takes (R106, R225, R226(c), R246, 93 U10): from a state before `MAIN_ENTRY`
with no port set up, or after it with every port set up, a step answers a next state of that kind with the same parameters,
or it is that fault; and while the environment does its duty (R229) it answers a next state, in which it still does. -/
def Obligations.StepNeverStops : Prop :=
  ∀ s : State, Started s →
    ((∃ t, step s = .next t ∧ Started t ∧ t.cfg = s.cfg) ∨ ∃ p, step s = .fault (.hostSendStalled p)) ∧
    ((∀ p, HostTakes p s) → ∃ t, step s = .next t ∧ Started t ∧ (∀ p, HostTakes p t) ∧ t.cfg = s.cfg)

/-! ## Encoding -/

/-- Decoding the encoding of a well-formed operation gives the operation, under every parameter. -/
def Obligations.DecodeEncodeRoundTrip : Prop :=
  ∀ (c : Params) (i : Instr), wellFormed c i = true → decode c (encode i) = .ok i

/-- A few words of the opcode table, each as the spec's byte tables give it (R92, R93, R109). The mode a one-byte word is read in
and the packing of two bytes into a word, the first byte lowest, are the model's choice (assumption log 21). -/
def Obligations.TableWordsDecode : Prop :=
  decodeTableWord 8 0x1F = some (.escArm .p0) ∧ decodeTableWord 8 0x41 = some (.pass .p0 0x41) ∧
    decodeTableWord 8 0x21 = some (.cmdRebootTarget .p0) ∧ decodeTableWord 8 0x12 = some (.cmdSelfReset .p0) ∧
    decodeTableWord 16 0x1F1F = some (.escLiteral .p0) ∧ decodeTableWord 16 0x411F = some (.cmdDrop .p0 0x41) ∧
    decodeTableWord 16 0x3F1F = some (.cmdHelp .p0)

/-! ## The step -/

/-- A step runs the selected operation (R190, R220, R222, R224, R228): in a quiet, running machine, by the run loop
position. What the step adds around `exec` is the position, the taken flag or byte, and `settleOutcome`, which takes a
device reset that landed inside. A byte at the pump is decoded with the mode bit of its port. The model's choices in it: a
step is one part of a pass (assumption log 25), the idle test clears the wake latch (log 24), a device reset is taken at the
end of the step (log 15); and the spec's decisions D3 (the flag is cleared at the test) and D39 (the transport call). -/
def Obligations.StepRunsSelectedOperation : Prop :=
  ∀ s : State, Quiet s → running s = true →
    (s.pos = .entry → step s = settleOutcome (exec .mainEntry s)) ∧
    (∀ p, s.pos = .turn p → s.live p = true → (s.shared p).pending = true →
      step s = settleOutcome (exec (.service p) ((clearPending p s).setPos (.pump p)))) ∧
    (∀ p, s.pos = .turn p → s.live p = true → (s.shared p).pending = false → step s = .next (s.setPos (.pump p))) ∧
    (∀ p, s.pos = .turn p ∨ s.pos = .pump p → s.live p = false → step s = .next (s.setPos (afterTurn p))) ∧
    (∀ p b rest, s.pos = .pump p → s.live p = true → (s.env p).host = b :: rest →
      step s = settleOutcome (exec ((decodeByte (s.regs p).esc b).instr p) (s.updEnv p fun e => { e with host := rest }))) ∧
    (∀ p, s.pos = .pump p → s.live p = true → (s.env p).host = [] →
      step s = settleOutcome (exec (.drainToHost p) (s.setPos (afterTurn p)))) ∧
    (s.pos = .transport → step s = settleOutcome (exec .transportService (s.setPos .idleTest))) ∧
    (s.pos = .idleTest → step s = .next ((s.setWake false).setPos (if anyPending s then .turn .p0 else .idle))) ∧
    (s.pos = .idle → step s = settleOutcome (exec .idleWait s))

/-- A word placed where the machine fetches is decoded and run by the very next step, on port 0, with the byte taken from the
channel and everything else of `MAIN`'s as it was placed. The placing is the model's (assumption log 2 and 21). -/
def Obligations.PlacedWordRuns : Prop :=
  ∀ (s : State) (nbits w : Nat) (i : Instr), decodeTableWord nbits w = some i →
    ∃ u, step (s.withFetchWord nbits w) = settleOutcome (exec i u) ∧ MainKept (s.withFetchWord nbits w) u ∧
      (u.env .p0).host = [] ∧ u.live .p0 = true

/-- `RUN_PASS` completes on a set-up device whose environment does its duty toward `HostSend` (R220, R229), and it is exactly one
pass of the machine's own steps (R220, R221, R226): when it starts a pass of a running block with no device reset coming,
at least one step reaches its result, which stands at the next pass start, in the idle wait or halted, with no such state in
between but the idle wait itself. That steps cut a pass in these parts is assumption log 25, the wake latch log 24. -/
def Obligations.PassIsItsSteps : Prop :=
  ∀ s : State, DeviceUp s → (∀ p, HostTakes p s) →
    ∃ t, exec .runPass s = .next t ∧
      (running s = true → s.pos = .turn .p0 → s.resetReq = none → NoResetMoves s → OnePass s t)

/-- The steps in which the block stands still. After a halt (R226) a step changes nothing of it: both port records, outputs,
flags, rings, the globals, the position, the trace. In the idle wait (R222(e)), with nothing scheduled and no interrupt
since the test, a step changes nothing at all. -/
def Obligations.HaltedAndIdleBlocksStay : Prop :=
  (∀ s : State, running s = false → s.resetReq = none → NoResetMoves s →
    ∃ t, step s = .next t ∧ MainKept s t ∧ (∀ q, t.shared q = s.shared q) ∧ t.trace = s.trace) ∧
  ∀ s : State, Still s → running s = true → s.pos = .idle → s.wake = false → step s = .next s

/-! ## Setup -/

/-- `SETUP` of a port that passes both validations (R121, R52): every field, every output and the line; other ports, the
levels and every register but the three status registers stay. An active interrupt line of the port changes none of this: no
handler runs before `SETUP` has returned (R281). The decided values are the spec's D9. That the PD reset leaves every other
register and the rest of the chip's side is the model's choice, which R285 leaves open (log 14); the 0x00 in the slots of the
emptied ring is log 3, the wake latch that `ChipReset` keeps log 24. -/
def Obligations.SetupOfPresentPort : Prop :=
  ∀ (s : State) (p : Port), Quiet s → (s.regs p).setUp = false → passesSetup s p →
    ∃ t, exec (.setup p) s = .next t ∧ OthersKept p s t ∧ t.regs p = setUpRegs s.cfg ∧ t.out p = setUpOut s.cfg ∧
      t.shared p = ⟨false, true, emptyRing (ringSlots s.cfg)⟩ ∧ (∀ q, q ≠ p → t.shared q = s.shared q) ∧
      ChipReset p s t ∧ Adds s t (setupEvents s.cfg p)

/-- `SETUP` of a port that fails a validation (R121, R52, R241): absent, line not armed, nothing pending, the two side effects
done, one condition and one log line; nothing else written. -/
def Obligations.SetupOfAbsentPort : Prop :=
  ∀ (s : State) (p : Port), Quiet s → (s.regs p).setUp = false → ¬ passesSetup s p →
    ∃ t, exec (.setup p) s = .next t ∧ OthersKept p s t ∧ t.regs p = { s.regs p with present := false, setUp := true } ∧
      t.out p = { s.out p with indicator := s.cfg.indicatorLevel, vbus := .released } ∧
      t.shared p = { s.shared p with irqEn := false, pending := false } ∧ BoundaryKeptBut p s t ∧
      Adds s t (setupSideEffects s.cfg p ++ .raised (.absence p (absenceCause s p)) ::
        (if (s.env p).connected then [.log p (.absent (absenceCause s p))] else []))

/-- `MAIN_ENTRY` (R228) while the environment does its duty (R229): the globals, both setups, the first pass next; every port
is as `SETUP` leaves a present or an absent port, and with no line active and nothing scheduled a port is present exactly
when it passes both validations. -/
def Obligations.MainEntrySetsUpBothPorts : Prop :=
  ∀ s : State, (∀ p, (s.regs p).setUp = false) → (∀ p, HostTakes p s) →
    ∃ t, exec .mainEntry s = .next t ∧ t.cfg = s.cfg ∧ t.ret = s.ret ∧ t.wdogArmed = false ∧ t.halt = .running ∧
      t.pos = .turn .p0 ∧ DeviceUp t ∧
      (∀ p, (t.regs p).present = true → t.regs p = setUpRegs s.cfg ∧ t.out p = setUpOut s.cfg) ∧
      (∀ p, (t.regs p).present = false → t.regs p = { s.regs p with present := false, setUp := true } ∧
        t.out p = { s.out p with indicator := s.cfg.indicatorLevel, vbus := .released }) ∧
      (Quiet s → (∀ p, (s.env p).line = false) →
        ∀ p, ((t.regs p).present = true ↔ passesSetup s p) ∧
          (t.shared p).pending = false ∧ (t.shared p).irqEn = (t.regs p).present)

/-- The only refusals and the only fault. Refusals (R229, R281, 93 U1 and U17; assumption log 11): before its `SETUP` has
returned no other operation of a port runs, nor a pass, and a UART byte is ignored; after it a second `SETUP`, or
`MAIN_ENTRY`, does not run; no operation is refused otherwise. Fault (R226(c), 93 U10; assumption log 39): stuck in a
`HostSend`, only where the environment does not do its duty toward the port. -/
def Obligations.RefusedAroundSetup : Prop :=
  (∀ (i : Instr) (p : Port) (s : State), instrPort i = some p → (s.regs p).setUp = false → i ≠ .setup p →
    exec .runPass s = .refused .notSetUp ∧
    ((∃ b, i = .uartRxIrq p b ∧ exec i s = .next s) ∨ exec i s = .refused .notSetUp)) ∧
  (∀ (s : State) (p : Port), (s.regs p).setUp = true →
    exec (.setup p) s = .refused .setUpTwice ∧ exec .mainEntry s = .refused .setUpTwice) ∧
  (∀ (i : Instr) (s : State) (r : Refusal), exec i s = .refused r →
    r = .notSetUp ∧
      ((∃ p, instrPort i = some p ∧ (s.regs p).setUp = false ∧ i ≠ .setup p ∧ ∀ b, i ≠ .uartRxIrq p b) ∨
        i = .runPass ∧ ¬ DeviceUp s) ∨
    r = .setUpTwice ∧ ((∃ p, i = .setup p ∧ (s.regs p).setUp = true) ∨
      i = .mainEntry ∧ ∃ p, (s.regs p).setUp = true)) ∧
  ∀ (i : Instr) (s : State) (f : Fault), exec i s = .fault f →
    (∃ q, f = .hostSendStalled q) ∧ (∃ q, ¬ HostTakes q s) ∧ ∀ p, instrPort i = some p → ¬ HostTakes p s

/-- An absent port is inert: every operation of it leaves the whole machine as it is (R29, R215; assumption log 12). -/
def Obligations.AbsentPortIsInert : Prop :=
  ∀ (i : Instr) (p : Port) (s : State), instrPort i = some p → (s.regs p).setUp = true → (s.regs p).present = false →
    i ≠ .setup p → exec i s = .next s

/-! ## Policy engine -/

/-- The CC predicates and choices (R135, R136), for every pair of levels and every threshold. -/
def Obligations.CcPredicates : Prop :=
  ∀ (c : Params) (cc : Nat × Nat),
    (anyAttach c cc = true ↔ c.attachThreshold ≤ cc.1 ∨ c.attachThreshold ≤ cc.2) ∧
    (bothBelow c cc = true ↔ cc.1 < c.attachThreshold ∧ cc.2 < c.attachThreshold) ∧
    selectPolarity cc = (if cc.2 > cc.1 then .cc2 else .cc1) ∧
    (wantVconn cc = true ↔ cc.1 ≠ 0 ∧ cc.2 ≠ 0)

/-- `TICK` in every state but `DISCONNECTED` (R126): the state's own step (R124, R125), then one debounce check (R127). -/
def Obligations.TickStepsThenDebounces : Prop :=
  ∀ (s : State) (p : Port), s.live p = true → Quiet s → (s.regs p).ps ≠ .disconnected →
    ∃ t, exec (.tick p) s = .next t ∧ OthersKept p s t ∧ BoundaryKept s t ∧
      t.regs p = debouncedRegs (bothBelow s.cfg (ccLevels s p)) (tickedRegs (s.regs p)) ∧
      t.out p = debouncedOut (bothBelow s.cfg (ccLevels s p)) (s.regs p) (s.out p) ∧
      ((s.regs p).ps = .dfpVbusOn ∧ (s.regs p).sct + 1 > Config.srcCapRetry →
        ∃ m m', TxMessage s p .sourceCap s.cfg.srcCapObjs m ∧ TxMessage s p s.cfg.probeCode s.cfg.probeObjs m' ∧
          Adds s t ([.tx p .sourceCap m, .tx p .probe m'] ++
            debounceEvents p (bothBelow s.cfg (ccLevels s p)) (s.regs p))) ∧
      (¬ ((s.regs p).ps = .dfpVbusOn ∧ (s.regs p).sct + 1 > Config.srcCapRetry) →
        Adds s t (debounceEvents p (bothBelow s.cfg (ccLevels s p)) (s.regs p)))

/-- `ON_ATTACH` (R123), `POLL_DISCONNECTED` (R122), and the tick of a `DISCONNECTED` port (R126): at attach level the whole
attach sequence; below it nothing changes, and a poll sleeps once, for 200 ms (R8). That an attaching tick does not debounce
is the spec's decision D4; that the PD reset of the attach leaves every register but the three status registers, and the rest
of the chip's side, is the model's choice, which R285 leaves open (assumption log 14). -/
def Obligations.AttachAtLevelElseNothing : Prop :=
  ∀ (s : State) (p : Port) (i : Instr), s.live p = true → Quiet s →
    i = .onAttach p ∨ i = .pollDisconnected p ∨ i = .tick p ∧ (s.regs p).ps = .disconnected →
    ∃ t, exec i s = .next t ∧
      (anyAttach s.cfg (ccLevels s p) = true → Attached p (ccLevels s p) s t) ∧
      (anyAttach s.cfg (ccLevels s p) = false → MainKept s t ∧ BoundaryKept s t ∧
        Adds s t (if i = .onAttach p then [] else [.delay p (.pollSleep 200)]))

/-- An attach in any environment (R122, R123(c)): whatever the readings do meanwhile, the port is as before, or attached by one
pair of levels, in the chip's range, of which one is at attach level. -/
def Obligations.AttachInAnyEnvironment : Prop :=
  ∀ (s : State) (p : Port) (i : Instr), s.live p = true → HostTakes p s →
    i = .onAttach p ∨ i = .pollDisconnected p ∨ i = .tick p ∧ (s.regs p).ps = .disconnected →
    ∃ t, exec i s = .next t ∧ OthersKept p s t ∧
      (t.regs p = s.regs p ∧ t.out p = s.out p ∨
        ∃ cc : Nat × Nat, anyAttach s.cfg cc = true ∧ cc.1 ≤ s.cfg.ccMax ∧ cc.2 ≤ s.cfg.ccMax ∧
          t.regs p = attachedRegs cc (s.regs p) ∧ t.out p = attachedOut cc (s.out p))

/-- VBUS is turned on only by an attach, only on a present port, and `DFP_VBUS_ON` is entered only with a CC line at attach
level (R123(d)); the levels are those of the state when nothing is scheduled. -/
def Obligations.VbusOnOnlyByAttach : Prop :=
  ∀ (i : Instr) (s t : State) (p : Port), exec i s = .next t →
    (s.out p).vbus ≠ .on ∧ (t.out p).vbus = .on ∨ (s.regs p).ps ≠ .dfpVbusOn ∧ (t.regs p).ps = .dfpVbusOn →
    s.live p = true ∧ i ∈ [.onAttach p, .pollDisconnected p, .tick p, .service p, .runPass] ∧
      (s.sched = [] → anyAttach s.cfg (ccLevels s p) = true)

/-- `TICK_VBUS_ON` (R124): the timer counts to 37; one more tick retransmits, probes and clears it (D7). -/
def Obligations.TickVbusOnCountsThenRetransmits : Prop :=
  ∀ (s : State) (p : Port), s.live p = true → HostTakes p s →
    ∃ t, exec (.tickVbusOn p) s = .next t ∧ OthersKept p s t ∧ t.out p = s.out p ∧
      t.regs p = { s.regs p with sct := if (s.regs p).sct < 37 then (s.regs p).sct + 1 else 0 } ∧
      (Quiet s → BoundaryKept s t ∧
        ((s.regs p).sct < 37 → Adds s t []) ∧
        (37 ≤ (s.regs p).sct →
          ∃ m m', TxMessage s p .sourceCap s.cfg.srcCapObjs m ∧ TxMessage s p s.cfg.probeCode s.cfg.probeObjs m' ∧
            Adds s t [.tx p .sourceCap m, .tx p .probe m']))

/-- `TICK_READY` (R125): to `IDLE`, nothing else. -/
def Obligations.TickReadyStepsToIdle : Prop :=
  ∀ (s : State) (p : Port), s.live p = true → HostTakes p s →
    ∃ t, exec (.tickReady p) s = .next t ∧ OthersKept p s t ∧ t.out p = s.out p ∧
      t.regs p = { s.regs p with ps := .idle } ∧ (Quiet s → BoundaryKept s t ∧ Adds s t [])

/-- `DEBOUNCE` (R127): a low reading counts, one after five disconnects, any other clears. -/
def Obligations.DebounceCountsToDetach : Prop :=
  ∀ (s : State) (p : Port), s.live p = true → Quiet s →
    ∃ t, exec (.debounce p) s = .next t ∧ OthersKept p s t ∧ BoundaryKept s t ∧
      (bothBelow s.cfg (ccLevels s p) = true → (s.regs p).deb < 5 →
        t.regs p = { s.regs p with deb := (s.regs p).deb + 1 } ∧ t.out p = s.out p ∧ Adds s t []) ∧
      (bothBelow s.cfg (ccLevels s p) = true → 5 ≤ (s.regs p).deb →
        t.regs p = { s.regs p with deb := 0, sct := 0, ps := .disconnected } ∧ t.out p = disconnectedOut (s.out p) ∧
          Adds s t (disconnectEvents p)) ∧
      (bothBelow s.cfg (ccLevels s p) = false →
        t.regs p = { s.regs p with deb := 0 } ∧ t.out p = s.out p ∧ Adds s t [])

/-- `ON_TX_COMPLETE` (R128), alone or as the transmit-success event (R175): in `DFP_VBUS_ON` to `DFP_CONNECTED` with the
serial-route VDM of the current route and its two routing outputs, which change at once (R164, R165; that the trace lists the
lane swap first is assumption log 37); in `DFP_ACCEPT` PS_RDY and to `IDLE`; in every other state nothing. -/
def Obligations.TxCompleteAdvances : Prop :=
  ∀ (s : State) (p : Port) (i : Instr), s.live p = true → HostTakes p s → i = .onTxComplete p ∨ i = .evTxSuccess p →
    ∃ t, exec i s = .next t ∧
      ((s.regs p).ps = .dfpVbusOn → OthersKept p s t ∧ t.regs p = { s.regs p with ps := .dfpConnected } ∧
        t.out p = { s.out p with
          laneSwap := routeLaneSwap (s.regs p).route (s.regs p).pol, srcSel := routeSrcSel (s.regs p).route } ∧
        (Quiet s → BoundaryKept s t ∧ ∃ m,
          TxMessage s p .vendorDefined (actionObjs s.cfg.actions (.serialRoute (s.regs p).route)) m ∧
          Adds s t [.tx p (.vdmSerialRoute (s.regs p).route) m,
            .out p (.laneSwap (routeLaneSwap (s.regs p).route (s.regs p).pol)),
            .out p (.srcSel (routeSrcSel (s.regs p).route))])) ∧
      ((s.regs p).ps = .dfpAccept → OthersKept p s t ∧ t.regs p = { s.regs p with ps := .idle } ∧ t.out p = s.out p ∧
        (Quiet s → BoundaryKept s t ∧ ∃ m, TxMessage s p .psRdy (Objs.clip []) m ∧ Adds s t [.tx p .psRdy m])) ∧
      ((s.regs p).ps ≠ .dfpVbusOn → (s.regs p).ps ≠ .dfpAccept →
        MainKept s t ∧ (Quiet s → BoundaryKept s t ∧ Adds s t []))

/-- `DISCONNECT` (R129, D8), alone or for a hard reset (R174, R244): whatever the policy state, the full sequence and back to
`DISCONNECTED` with both counters cleared; the operator's settings, the routing outputs, the ring and the line are kept. -/
def Obligations.DisconnectReturnsToRest : Prop :=
  ∀ (s : State) (p : Port), s.live p = true → HostTakes p s →
    ∀ ies ∈ [(Instr.disconnect p, []), (.evHardReset p, [Event.raised (.hardFailure p .hardReset)])],
      ∃ t, exec ies.1 s = .next t ∧ OthersKept p s t ∧
        t.regs p = { s.regs p with deb := 0, sct := 0, ps := .disconnected } ∧
        t.out p = { s.out p with vbus := .released, vconn := false, rxEn := false, ccRole := .srcPlain } ∧
        (Quiet s → BoundaryKept s t ∧ Adds s t (ies.2 ++ disconnectEvents p))

/-- `VBUS_OFF` (R130): driven off, settled, released. -/
def Obligations.VbusOffDrivesWaitsReleases : Prop :=
  ∀ (s : State) (p : Port), s.live p = true → HostTakes p s →
    ∃ t, exec (.vbusOff p) s = .next t ∧ OthersKept p s t ∧ t.regs p = s.regs p ∧
      t.out p = { s.out p with vbus := .released } ∧
      (Quiet s → BoundaryKept s t ∧
        Adds s t [.out p (.vbus .offDriven), .delay p .vbusSettle, .out p (.vbus .released)])

/-! ## Messages and transmission -/

/-- `ON_MESSAGE` (R140): after nothing but optional `DIAG` lines it is the operation of the record's class (R98), which
completes, whatever the policy state (R167). -/
def Obligations.OnMessageDispatchesByClass : Prop :=
  ∀ (s : State) (p : Port) (r : RxRecord), s.live p = true → HostTakes p s →
    ∃ u t, MainKept s u ∧ (Quiet s → Quiet u ∧ BoundaryKept s u ∧ Adds s u []) ∧
      exec ((decodeRecord s.cfg r).instr p) u = .next t ∧ exec (.onMessage p r) s = .next t

/-- `RX_VDM` (R143): after nothing but optional `DIAG` lines it is the operation of the sub-command class (R101), which
completes. -/
def Obligations.RxVdmDispatchesBySubCommand : Prop :=
  ∀ (s : State) (p : Port) (m : Msg), s.live p = true → HostTakes p s →
    ∃ u t, MainKept s u ∧ (Quiet s → Quiet u ∧ BoundaryKept s u ∧ Adds s u []) ∧
      exec ((vdmClass s.cfg m).instr p m) u = .next t ∧ exec (.rxVdm p m) s = .next t

/-- The received messages that only get an answer: Source-Capabilities gets the fixed Request (R141, R151), both swaps a Reject
(R147, R148, R153); the policy state does not change. -/
def Obligations.RxRepliesOnly : Prop :=
  ∀ (s : State) (p : Port) (m : Msg), s.live p = true → HostTakes p s →
    TransmitsOnly (.rxSourceCap p m) p s .request .request s.cfg.requestObjs ∧
    TransmitsOnly (.rxPrSwap p m) p s .reject .reject (Objs.clip []) ∧
    TransmitsOnly (.rxDrSwap p m) p s .reject .reject (Objs.clip [])

/-- The received messages that are answered and advance the policy state, from any state: Request (R142), Get-Sink-Capabilities
(R144), DISCOVER_IDENTITY request (R158). -/
def Obligations.RxRepliesAndAdvances : Prop :=
  ∀ (s : State) (p : Port) (m : Msg), s.live p = true → HostTakes p s →
    TransmitsAndSets (.rxRequest p m) p s { s.regs p with ps := .dfpAccept } .accept .accept (Objs.clip []) ∧
    TransmitsAndSets (.rxGetSinkCap p m) p s { s.regs p with ps := .ready } .sinkCap .sinkCap s.cfg.sinkCapObjs ∧
    TransmitsAndSets (.vdmDiscoverIdentityReq p m) p s { s.regs p with ps := .ready } .identityAck .vendorDefined
      s.cfg.identityObjs

/-- An empty record and a DISCOVER_IDENTITY ack change nothing and send nothing (R145, R159, R242). -/
def Obligations.IgnoredMessages : Prop :=
  ∀ (s : State) (p : Port) (r : RxRecord) (m : Msg) (i : Instr), s.live p = true → HostTakes p s →
    i = .rxEmpty p r ∨ i = .vdmDiscoverIdentityAck p m →
    ∃ t, exec i s = .next t ∧ MainKept s t ∧ (Quiet s → BoundaryKept s t ∧ Adds s t [])

/-- A message or VDM the block does not know (R146, R160, R243): the condition and one log line with the whole message; no
reply, no state change. The line is lost on a disconnected channel (R262). That the line is exactly one log event is
assumption log 35, the raised event in the trace log 36. -/
def Obligations.UnknownMessagesAreLogged : Prop :=
  ∀ (s : State) (p : Port) (m : Msg), s.live p = true → HostTakes p s →
    (∃ t, exec (.rxOther p m) s = .next t ∧ MainKept s t ∧ (Quiet s → BoundaryKept s t ∧
      Adds s t (.raised (.protocolViolationMsg p m) ::
        (if (s.env p).connected then [.log p (.unhandledMsg m)] else [])))) ∧
    (∃ t, exec (.vdmOther p m) s = .next t ∧ MainKept s t ∧ (Quiet s → BoundaryKept s t ∧
      Adds s t (.raised (.protocolViolationVdm p m) ::
        (if (s.env p).connected then [.log p (.unhandledVdm m)] else []))))

/-- The transmit operations with fixed contents (R150 to R157, R161 to R163): one message each, nothing else; and, under the
constraints of R9, the identity reply is a DISCOVER_IDENTITY ack by the block's own test (R101, R157). -/
def Obligations.FixedTransmissions : Prop :=
  ∀ (s : State) (p : Port), s.live p = true → HostTakes p s →
    TransmitsOnly (.txSourceCap p) p s .sourceCap .sourceCap s.cfg.srcCapObjs ∧
    TransmitsOnly (.txRequest p) p s .request .request s.cfg.requestObjs ∧
    TransmitsOnly (.txAccept p) p s .accept .accept (Objs.clip []) ∧
    TransmitsOnly (.txReject p) p s .reject .reject (Objs.clip []) ∧
    TransmitsOnly (.txPsRdy p) p s .psRdy .psRdy (Objs.clip []) ∧
    TransmitsOnly (.txSinkCap p) p s .sinkCap .sinkCap s.cfg.sinkCapObjs ∧
    TransmitsOnly (.txProbe p) p s .probe s.cfg.probeCode s.cfg.probeObjs ∧
    TransmitsOnly (.txIdentityAck p) p s .identityAck .vendorDefined s.cfg.identityObjs ∧
    TransmitsOnly (.txVdmReboot p) p s .vdmReboot .vendorDefined (actionObjs s.cfg.actions .reboot) ∧
    TransmitsOnly (.txVdmDfuHold p) p s .vdmDfuHold .vendorDefined (actionObjs s.cfg.actions .dfuHold) ∧
    TransmitsOnly (.txVdmPdReset p) p s .vdmPdReset .vendorDefined (actionObjs s.cfg.actions .pdReset) ∧
    (paramsOk s.cfg = true → ∀ m, m.obj = s.cfg.identityObjs → vdmClass s.cfg m = .discoverIdentityAck)

/-- `TX_VDM_SERIAL_ROUTE` (R164, R165): the route's VDM first, then lane swap exactly for SBU with CC2 and the source select
exactly by SBU. The two change at once; that the trace lists the lane swap first is the model's choice (assumption log 37). -/
def Obligations.SerialRouteSetsRoutingOutputs : Prop :=
  ∀ (s : State) (p : Port), s.live p = true → HostTakes p s →
    ∃ t, exec (.txVdmSerialRoute p) s = .next t ∧ OthersKept p s t ∧ t.regs p = s.regs p ∧
      t.out p = { s.out p with
        laneSwap := decide ((s.regs p).route = .sbu ∧ (s.regs p).pol = .cc2)
        srcSel := if (s.regs p).route = .sbu then .sbuPins else .usbPins } ∧
      (Quiet s → BoundaryKept s t ∧ ∃ m,
        TxMessage s p .vendorDefined (actionObjs s.cfg.actions (.serialRoute (s.regs p).route)) m ∧
        Adds s t [.tx p (.vdmSerialRoute (s.regs p).route) m, .out p (.laneSwap (t.out p).laneSwap),
          .out p (.srcSel (t.out p).srcSel)])

/-! ## Event dispatcher -/

/-- `IRQ_HANDLER` (R171, R253, R254): with no ready line nothing; otherwise one ready port gets its flag set and its line
masked, and nothing else changes. That it ends the idle wait (R222) is written as the model's wake latch, set by
`IrqTaken` (assumption log 24). -/
def Obligations.IrqHandlerMarksAndMasks : Prop :=
  ∀ s : State,
    ((∀ p, irqReady s p = false) → exec .irqHandler s = .next s) ∧
    ((∃ p, irqReady s p = true) → ∃ p t, irqReady s p = true ∧ exec .irqHandler s = .next t ∧ IrqTaken p s t)

/-- `SERVICE` (R172, R178, R180, R181): the status is read and cleared once, every event of it runs in the fixed order, then one
tick, then the re-arm, whatever happens meanwhile; the line is armed at the end. -/
def Obligations.ServiceRunsEventsTickRearm : Prop :=
  ∀ (s : State) (p : Port), s.live p = true → HostTakes p s →
    ∃ x u t, MainKept s u ∧ exec (.service p) s = .next t ∧
      execAll ((decodeStatus s.cfg x).map (EvKind.instr p) ++ [.tick p, .rearm p]) u = .next t ∧
      (t.shared p).irqEn = true ∧
      (Quiet s → x = latchedStatus s.cfg (s.env p).tcpc ∧ Quiet u ∧ Adds s u [] ∧ (∀ q, u.shared q = s.shared q) ∧
        (u.env p).tcpc = putStatus s.cfg (s.env p).tcpc ⟨0, 0, 0⟩ ∧
        u.env p = { s.env p with tcpc := (u.env p).tcpc } ∧ (∀ q, q ≠ p → u.env q = s.env q) ∧
        (∀ a, a ≠ s.cfg.intStatusAddrA → a ≠ s.cfg.intStatusAddrB → a ≠ s.cfg.intStatusAddrC →
          readReg (u.env p).tcpc a = readReg (s.env p).tcpc a))

/-- `EV_VBUS_GOOD` (R173): with VBUS present Source-Capabilities and the probe; absent, the hard failure and a disconnect. -/
def Obligations.VbusGoodBranchesOnLevel : Prop :=
  ∀ (s : State) (p : Port), s.live p = true → Quiet s →
    ∃ t, exec (.evVbusGood p) s = .next t ∧ OthersKept p s t ∧ BoundaryKept s t ∧
      ((s.env p).vbusPresent = true → t.regs p = s.regs p ∧ t.out p = s.out p ∧
        ∃ m m', TxMessage s p .sourceCap s.cfg.srcCapObjs m ∧ TxMessage s p s.cfg.probeCode s.cfg.probeObjs m' ∧
          Adds s t [.tx p .sourceCap m, .tx p .probe m']) ∧
      ((s.env p).vbusPresent = false → t.regs p = disconnectedRegs (s.regs p) ∧ t.out p = disconnectedOut (s.out p) ∧
        Adds s t (.raised (.hardFailure p .vbusLost) :: disconnectEvents p))

/-- `EV_MSG_RX` (R176): it drains the queue in every environment (or a device reset cut it off); in a quiet one it handles
exactly the queued records, oldest first, each popped before it is handled. -/
def Obligations.MsgRxDrainsQueue : Prop :=
  ∀ (s : State) (p : Port), s.live p = true → HostTakes p s →
    ∃ t, exec (.evMsgRx p) s = .next t ∧ ((t.env p).rx = [] ∨ t.resetReq.isSome = true) ∧
      (Quiet s → ∃ u, MainKept s u ∧ BoundaryKept s u ∧ Adds s u [] ∧ Drains p (s.env p).rx u t)

/-- `REARM` (R177): the line is armed; nothing else changes. -/
def Obligations.RearmArmsLine : Prop :=
  ∀ (s : State) (p : Port), s.live p = true → HostTakes p s →
    ∃ t, exec (.rearm p) s = .next t ∧ MainKept s t ∧ (t.shared p).irqEn = true ∧
      (Quiet s → BoundaryKeptBut p s t ∧ t.shared p = { s.shared p with irqEn := true } ∧ Adds s t [])

/-! ## Multiplexer -/

/-- `MUX_PUMP` (R190, R216): it is the operations of its bytes one after the other, each decoded with the mode it finds, then
`DRAIN_TO_HOST` (`Pumps`); what the scanner of R216 says: the bytes on the UART, the mode it ends in, the commands in order, a
halt only by a firmware-update command. Without one every byte is consumed and the ring ends empty, its bytes on the host
channel, or lost on a disconnected one (R211, R67); with one, the pump returns at once (R190, R226). -/
def Obligations.PumpScansHostBytes : Prop :=
  ∀ (s : State) (p : Port), s.live p = true → Quiet s → running s = true →
    ∃ t is, exec (.muxPump p) s = .next t ∧ Pumps p (s.env p).host is s t ∧
      is.filter isCommand = (scanCommands (s.regs p).esc (s.env p).host).map (fun b => (decodeByte true b).instr p) ∧
      uartStream p t.trace = uartStream p s.trace ++ scanUart (s.regs p).esc (s.env p).host ∧
      (t.regs p).esc = scanMode (s.regs p).esc (s.env p).host ∧
      t.halt = (if scanHalts (s.regs p).esc (s.env p).host then .fwUpdate else .running) ∧
      (scanHalts (s.regs p).esc (s.env p).host = false → (t.env p).host = [] ∧
        ((s.shared p).ring.wf (ringSlots s.cfg) = true → ringContents (ringSlots s.cfg) (t.shared p).ring = [] ∧
          deviceStream p t.trace = deviceStream p s.trace ++
            (if (s.env p).connected then ringContents (ringSlots s.cfg) (s.shared p).ring else [])))

/-- The operations that put one byte on the UART: `PASS` its own byte, which is any byte but 0x1F in default mode (R192);
`ESC_LITERAL`, which is 0x1F while armed, the escape byte, disarming (R194, R205). That the operation itself clears the mode
is assumption log 22. -/
def Obligations.BytesReachUart : Prop :=
  ∀ (s : State) (p : Port) (b : Byte), s.live p = true → HostTakes p s →
    (b ≠ 0x1F → (decodeByte false b).instr p = .pass p b) ∧ (decodeByte true 0x1F).instr p = .escLiteral p ∧
    (∃ t, exec (.pass p b) s = .next t ∧ MainKept s t ∧ (Quiet s → BoundaryKept s t ∧ Adds s t [.uart p b])) ∧
    (∃ t, exec (.escLiteral p) s = .next t ∧ OthersKept p s t ∧ t.out p = s.out p ∧
      t.regs p = { s.regs p with esc := false } ∧ (Quiet s → BoundaryKept s t ∧ Adds s t [.uart p 0x1F]))

/-- `ESC_ARM`, which is 0x1F in default mode, arms (R193); `CMD_DROP`, which is any byte while armed but the ten of the
armed table, only disarms (R204, R205); neither forwards anything. That `CMD_DROP` itself clears the mode is assumption
log 22. -/
def Obligations.EscapeArmsAndDrops : Prop :=
  ∀ (s : State) (p : Port) (b : Byte), s.live p = true → HostTakes p s →
    (decodeByte false 0x1F).instr p = .escArm p ∧
    ((decodeByte true b).instr p = .cmdDrop p b ↔
      b ∉ [0x1F, 0x21, 0x12, 0x1E, 0x18, 0x04, 0x0D, 0x31, 0x32, 0x3F]) ∧
    (∃ t, exec (.escArm p) s = .next t ∧ OthersKept p s t ∧ t.out p = s.out p ∧
      t.regs p = { s.regs p with esc := true } ∧ (Quiet s → BoundaryKept s t ∧ Adds s t [])) ∧
    (∃ t, exec (.cmdDrop p b) s = .next t ∧ OthersKept p s t ∧ t.out p = s.out p ∧
      t.regs p = { s.regs p with esc := false } ∧ (Quiet s → BoundaryKept s t ∧ Adds s t []))

/-- The commands that transmit (R195, R200, R201, R202): reboot, probe, and both route commands, which also select their route
and leave the routing outputs alone. Each clears the mode (R205), inside the operation (assumption log 22). -/
def Obligations.CommandsThatTransmit : Prop :=
  ∀ (s : State) (p : Port), s.live p = true → HostTakes p s →
    TransmitsAndSets (.cmdRebootTarget p) p s { s.regs p with esc := false } .vdmReboot .vendorDefined
      (actionObjs s.cfg.actions .reboot) ∧
    TransmitsAndSets (.cmdDebugProbe p) p s { s.regs p with esc := false } .probe s.cfg.probeCode s.cfg.probeObjs ∧
    TransmitsAndSets (.cmdRoute1 p) p s { s.regs p with esc := false, route := s.cfg.routeOfKey1 } .vdmPdReset
      .vendorDefined (actionObjs s.cfg.actions .pdReset) ∧
    TransmitsAndSets (.cmdRoute2 p) p s { s.regs p with esc := false, route := s.cfg.routeOfKey2 } .vdmPdReset
      .vendorDefined (actionObjs s.cfg.actions .pdReset)

/-- The two operator-fatal commands (R196, R197, R245): `CMD_SELF_RESET` arms the watchdog and the block runs on;
`CMD_FW_UPDATE` halts it. Each records its condition (its event in the trace: assumption log 36); no transmission, no
disconnect, the outputs stay. Each clears the mode (R205), inside the operation (log 22). -/
def Obligations.OperatorFatalCommands : Prop :=
  ∀ (s : State) (p : Port), s.live p = true → HostTakes p s →
    (∃ t, exec (.cmdSelfReset p) s = .next t ∧ OthersKept p (s.setWdogArmed true) t ∧ t.out p = s.out p ∧
      t.regs p = { s.regs p with esc := false } ∧
      (Quiet s → BoundaryKept s t ∧ Adds s t [.raised (.operatorFatal .selfReset)])) ∧
    (∃ t, exec (.cmdFwUpdate p) s = .next t ∧ OthersKept p (s.setHalt .fwUpdate) t ∧ t.out p = s.out p ∧
      t.regs p = { s.regs p with esc := false } ∧
      (Quiet s → BoundaryKept s t ∧ Adds s t [.raised (.operatorFatal .fwUpdate)]))

/-- `CMD_FORCE_DISCONNECT` (R198): marks pending and runs the disconnect, raising nothing. It clears the mode (R205), inside
the operation (assumption log 22). -/
def Obligations.ForceDisconnectMarksPending : Prop :=
  ∀ (s : State) (p : Port), s.live p = true → HostTakes p s →
    ∃ t, exec (.cmdForceDisconnect p) s = .next t ∧ OthersKept p s t ∧ (t.shared p).pending = true ∧
      t.regs p = { disconnectedRegs (s.regs p) with esc := false } ∧ t.out p = disconnectedOut (s.out p) ∧
      (Quiet s → BoundaryKeptBut p s t ∧ t.shared p = { s.shared p with pending := true } ∧
        Adds s t (disconnectEvents p))

/-- `CMD_TOGGLE_VERBOSE` (R199), which is 0x04 while armed: the flag is inverted; nothing else changes but that the mode is
cleared (R205), inside the operation (assumption log 22). -/
def Obligations.ToggleVerboseInverts : Prop :=
  ∀ (s : State) (p : Port), s.live p = true → HostTakes p s →
    (decodeByte true 0x04).instr p = .cmdToggleVerbose p ∧
    ∃ t, exec (.cmdToggleVerbose p) s = .next t ∧ OthersKept p s t ∧ t.out p = s.out p ∧
      t.regs p = { s.regs p with esc := false, verbose := !(s.regs p).verbose } ∧
      (Quiet s → BoundaryKept s t ∧ Adds s t [])

/-- `CMD_HELP` (R203, R261): one help line with every configured port and whether it is present; nothing on the UART. One event
for the print is assumption log 35; it clears the mode (R205), inside the operation (log 22). -/
def Obligations.HelpListsPorts : Prop :=
  ∀ (s : State) (p : Port), s.live p = true → HostTakes p s →
    ∃ t, exec (.cmdHelp p) s = .next t ∧ OthersKept p s t ∧ t.out p = s.out p ∧
      t.regs p = { s.regs p with esc := false } ∧
      (Quiet s → BoundaryKept s t ∧ Adds s t (if (s.env p).connected then
        [.log p (.help [(.p0, (s.regs .p0).present), (.p1, (s.regs .p1).present)])] else []))

/-- The break calls (R206, R207): the line break is asserted or released, whatever the hint and however often. -/
def Obligations.BreakCallsDriveLine : Prop :=
  ∀ (s : State) (p : Port) (hint : Nat), s.live p = true → HostTakes p s →
    (∃ t, exec (.breakBegin p hint) s = .next t ∧ OthersKept p s t ∧ t.regs p = s.regs p ∧
      t.out p = { s.out p with uartBreak := true } ∧ (Quiet s → BoundaryKept s t ∧ Adds s t [.out p (.uartBreak true)])) ∧
    (∃ t, exec (.breakEnd p hint) s = .next t ∧ OthersKept p s t ∧ t.regs p = s.regs p ∧
      t.out p = { s.out p with uartBreak := false } ∧ (Quiet s → BoundaryKept s t ∧ Adds s t [.out p (.uartBreak false)]))

/-- The ring of a port holds a first-in first-out sequence of at most `RING_CAP` bytes (R70): a put appends and, into a full
ring, drops the oldest byte and keeps the new one; a get returns the oldest byte, or none and no change. The cursors count
`RING_CAP + 1` slots (`ringSlots`, R212, 90_conflicts.md C3). -/
def Obligations.RingIsBoundedFifo : Prop :=
  ∀ (c : Params) (x : Ring) (b : Byte), x.wf (ringSlots c) = true →
    (ringContents (ringSlots c) x).length ≤ c.ringCap ∧
    (ringPush (ringSlots c) b x).wf (ringSlots c) = true ∧ (ringPop (ringSlots c) x).2.wf (ringSlots c) = true ∧
    ringContents (ringSlots c) (ringPush (ringSlots c) b x) =
      (if (ringContents (ringSlots c) x).length < c.ringCap then ringContents (ringSlots c) x ++ [b]
        else (ringContents (ringSlots c) x ++ [b]).drop 1) ∧
    (ringContents (ringSlots c) x = [] → ringPop (ringSlots c) x = (none, x)) ∧
    ∀ b' rest, ringContents (ringSlots c) x = b' :: rest →
      (ringPop (ringSlots c) x).1 = some b' ∧ ringContents (ringSlots c) (ringPop (ringSlots c) x).2 = rest

/-- `RING_PUT` and the UART receive interrupt (R208, R209, R222(d)): the port's ring gets the byte and nothing else changes, but
that the interrupt ends the idle wait, which is the model's wake latch (assumption log 24). -/
def Obligations.UartByteGoesIntoRing : Prop :=
  ∀ (s : State) (p : Port) (b : Byte), s.live p = true →
    (∃ t, exec (.ringPut p b) s = .next t ∧ MainKept s t ∧ BoundaryKeptBut p s t ∧ t.trace = s.trace ∧
      t.shared p = { s.shared p with ring := ringPush (ringSlots s.cfg) b (s.shared p).ring }) ∧
    (running s = true → ∃ t, exec (.uartRxIrq p b) s = .next t ∧ MainKept s t ∧ t.trace = s.trace ∧ t.wake = true ∧
      BoundaryKeptBut p (s.setWake true) t ∧
      t.shared p = { s.shared p with ring := ringPush (ringSlots s.cfg) b (s.shared p).ring })

/-- `RING_GET` (R210): the oldest byte is returned and the read cursor advanced, or none and nothing changes. The returned byte
stands in the model's return slot (assumption log 29); the section itself is over before any handler or input (R74), which
may follow in the optional `DIAG` lines of a verbose port (R267, log 7). -/
def Obligations.RingGetReturnsOldest : Prop :=
  ∀ (s : State) (p : Port), s.live p = true → HostTakes p s →
    ∃ t, exec (.ringGet p) s = .next t ∧ MainKept (s.setRet (ringPop (ringSlots s.cfg) (s.shared p).ring).1) t ∧
      (Quiet s → BoundaryKeptBut p s t ∧ Adds s t [] ∧
        t.shared p = { s.shared p with ring := (ringPop (ringSlots s.cfg) (s.shared p).ring).2 })

/-- `DRAIN_TO_HOST` (R211): every byte held goes to the host, oldest first and verbatim, or is discarded on a disconnected
channel; the ring ends empty. While a connected host takes nothing and never will, a drain of a ring that holds a byte is
stuck (R67, R226(c), R295, 93 U10; that this is a fault is assumption log 39). -/
def Obligations.DrainSendsRingVerbatim : Prop :=
  ∀ (s : State) (p : Port), s.live p = true → (s.shared p).ring.wf (ringSlots s.cfg) = true →
    (Quiet s → ∃ t, exec (.drainToHost p) s = .next t ∧ MainKept s t ∧ BoundaryKeptBut p s t ∧
      t.shared p = { s.shared p with ring := { (s.shared p).ring with r := (s.shared p).ring.w } } ∧
      Adds s t (if (s.env p).connected then
        (ringContents (ringSlots s.cfg) (s.shared p).ring).map (Event.host p) else [])) ∧
    (s.sched = [] → s.resetReq = none → s.stalled = none → (s.env p).connected = true → (s.env p).takes = false →
      ringContents (ringSlots s.cfg) (s.shared p).ring ≠ [] → exec (.drainToHost p) s = .fault (.hostSendStalled p))

/-! ## Run loop and device reset -/

/-- `TRANSPORT_SERVICE` (R224, R206, R207): it writes no field of any `P[p]` and no output but the break lines; in a quiet
environment it delivers every waiting break call, and the last one for a live port decides its line. -/
def Obligations.TransportServiceDeliversBreaks : Prop :=
  ∀ s : State, (∀ p, HostTakes p s) → ∃ t, exec .transportService s = .next t ∧ t.cfg = s.cfg ∧
    t.wdogArmed = s.wdogArmed ∧ t.halt = s.halt ∧ t.pos = s.pos ∧ t.ret = s.ret ∧ (∀ p, t.regs p = s.regs p) ∧
    (∀ p, t.out p = { s.out p with uartBreak := (t.out p).uartBreak }) ∧
    (∀ p, s.live p = false → t.out p = s.out p) ∧
    (Quiet s → BoundaryKept (s.setCalls []) t ∧
      ∀ p, s.live p = true → (t.out p).uartBreak =
        (((s.calls.filter (fun c => c.port = p)).getLast?.map BreakCall.begins).getD (s.out p).uartBreak))

/-- `IDLE_WAIT` (R222, R297): it writes no field of the spec; an interrupt since the test ends it at once (D34), none leaves the
block in it. The latch that remembers the interrupt is the model's (assumption log 24). -/
def Obligations.IdleWaitEndsByInterrupt : Prop :=
  ∀ s : State, ∃ t, exec .idleWait s = .next t ∧ t.cfg = s.cfg ∧ t.wdogArmed = s.wdogArmed ∧ t.halt = s.halt ∧
    t.ret = s.ret ∧ (∀ p, t.regs p = s.regs p) ∧ (∀ p, t.out p = s.out p) ∧ t.trace = s.trace ∧
    (t.pos = .idle ∨ t.pos = .turn .p0) ∧
    (Quiet s → (s.wake = true → t = (s.setWake false).setPos (.turn .p0)) ∧ (s.wake = false → t = s.setPos .idle))

/-- `DEVICE_RESET` (R265, R280, R281, R50): from power-on at any time, from the watchdog only while it is armed; nothing of the
block survives, the ring, the wake latch and the return slot included, no interrupt is armed and `MAIN_ENTRY` is next; the
environment is as it was, unread host bytes and undelivered break calls included (assumption log 38). The values before
`SETUP` are log 3. Unarmed, the watchdog does nothing (log 18). -/
def Obligations.DeviceResetLosesBlockState : Prop :=
  ∀ (s : State) (c : ResetCause),
    (c = .powerOn ∨ s.wdogArmed = true →
      ∃ t, exec (.deviceReset c) s = .next t ∧ t.wdogArmed = false ∧ t.halt = .running ∧ t.pos = .entry ∧
        (∀ p, t.regs p = PortRegs.reset ∧ t.out p = Outputs.reset ∧ t.shared p = Shared.reset (ringSlots s.cfg) ∧
          (t.shared p).irqEn = false ∧ (t.shared p).pending = false ∧ t.env p = s.env p) ∧
        t.wake = false ∧ t.ret = none ∧ t.stalled = none ∧ t.resetReq = none ∧
        t.cfg = s.cfg ∧ t.sched = s.sched ∧ t.calls = s.calls ∧ t.trace = s.trace) ∧
    (c = .watchdog → s.wdogArmed = false → exec (.deviceReset c) s = .next s)

/-! ## The whole machine -/

/-- Ports share nothing (R20, R259): an operation of one port leaves the record and the outputs of every other port alone. -/
def Obligations.PortsAreIsolated : Prop :=
  ∀ (i : Instr) (p q : Port) (s t : State), instrPort i = some p → q ≠ p → exec i s = .next t →
    t.regs q = s.regs q ∧ t.out q = s.out q

/-- The boundary frame of a quiet environment, for every operation (R72, R256, R259): an operation of one port leaves the flags,
the line, the ring and the environment of every other port alone; and no byte of any transceiver register space changes
but by the operations that reset a chip or read its status. -/
def Obligations.QuietBoundaryFrame : Prop :=
  ∀ (i : Instr) (s t : State), exec i s = .next t → Quiet s →
    (∀ p q, instrPort i = some p → q ≠ p → t.shared q = s.shared q ∧ t.env q = s.env q) ∧
    ((∀ p, i ∉ [.setup p, .onAttach p, .pollDisconnected p, .tick p, .service p]) → i ≠ .mainEntry → i ≠ .runPass →
      ∀ q a, readReg (t.env q).tcpc a = readReg (s.env q).tcpc a)

/-- Who may change what of `P[q]` (R22, R23, R27, R28, R29): `present` only a setup or a device reset, `pol` only an attach,
`route` only a route command, `esc` only a byte operation, `verbose` only the toggle, each alone or inside the operation
that runs it. -/
def Obligations.RegisterWriters : Prop :=
  ∀ (i : Instr) (q : Port) (s t : State), exec i s = .next t →
    i ≠ .setup q → i ≠ .mainEntry → (∀ c, i ≠ .deviceReset c) →
    (t.regs q).present = (s.regs q).present ∧
    ((t.regs q).pol ≠ (s.regs q).pol → i ∈ [.onAttach q, .pollDisconnected q, .tick q, .service q, .runPass]) ∧
    ((t.regs q).route ≠ (s.regs q).route → i ∈ [.cmdRoute1 q, .cmdRoute2 q, .muxPump q, .runPass]) ∧
    ((t.regs q).verbose ≠ (s.regs q).verbose → i ∈ [.cmdToggleVerbose q, .muxPump q, .runPass]) ∧
    ((t.regs q).esc ≠ (s.regs q).esc →
      i ∈ [.escArm q, .escLiteral q, .cmdRebootTarget q, .cmdSelfReset q, .cmdFwUpdate q, .cmdForceDisconnect q,
        .cmdToggleVerbose q, .cmdDebugProbe q, .cmdRoute1 q, .cmdRoute2 q, .cmdHelp q, .muxPump q, .runPass] ∨
      ∃ b, i = .cmdDrop q b)

/-- A pending flag is cleared only by a setup (R121), a device reset (R265), or the test-and-clear of a pass (R220, R77). That
the flag is cleared there, and not by `SERVICE` itself as R30 and R172 read alone, is the spec's decision D3 and
90_conflicts.md C9. -/
def Obligations.PendingIsNotLost : Prop :=
  ∀ (i : Instr) (q : Port) (s t : State), exec i s = .next t → (s.shared q).pending = true →
    (t.shared q).pending = true ∨ i ∈ [.setup q, .mainEntry, .runPass] ∨ ∃ c, i = .deviceReset c

/-- A register space reads back what was written, as one byte (`readReg8`, `writeReg8`) and as two (`readReg16`, `writeReg16`),
leaves every other register alone, and keeps its canonical form (R61). The form is the model's (assumption log 20); that
a two-byte access is at the address and the next one, in the driver's order, is log 40. -/
def Obligations.RegisterReadsBackWrite : Prop :=
  ∀ (m : Memory) (a b : Nat), Memory.wf m = true →
    (∀ v : Byte, readReg (writeReg m a v) b = (if b = a then v else readReg m b) ∧ Memory.wf (writeReg m a v) = true) ∧
    ∀ v : BitVec 16, readReg16 (writeReg16 m a v) a = v ∧ Memory.wf (writeReg16 m a v) = true ∧
      (b ≠ a → b ≠ a + 1 → readReg (writeReg16 m a v) b = readReg m b)
end

