-- ==== Sys2Proof/Laws/Config.lean ====
section
/-! SUPPORT. The parameters the machine starts with meet the constraints of R9, whatever the open ones are. -/

namespace Sys2Proof.Machine

/-- The identity reply of the parameters after reset is an ack and no request (R101, R157). -/
theorem identityIsAck_default : identityIsAck Params.default = true := by
  have h := (@Config.identityFirst ⟨AckHeader.some⟩).property
  have hne : (discIdAckDefault.value : Obj) ≠ discIdReqDefault.value := by decide
  have hm : discIdReqDefault.mask = discIdAckDefault.mask := rfl
  simp only [identityIsAck, Params.default, Objs.clip, List.take_succ_cons, matchesAny, List.any_cons, List.any_nil, hm, h]
  decide

/-- The constraints of R9 hold of the parameters after reset. -/
theorem paramsOk_default : paramsOk Params.default = true := by
  have hs := (@Config.intStatusAddrs ⟨StatusAddrs.some⟩).property
  have ha := (@Config.actionTable ⟨ActionTable.some⟩).property
  have hv : vdmTestsExclude Params.default = true := by decide
  simp only [paramsOk, identityIsAck_default, hv, Bool.and_true, Bool.and_eq_true, decide_eq_true_eq]
  refine ⟨⟨⟨⟨⟨⟨⟨⟨⟨⟨?_, ?_⟩, ?_⟩, ?_⟩, hs⟩, ?_⟩, ?_⟩, ?_⟩, ha⟩, ?_⟩, rfl⟩ <;> decide

end Sys2Proof.Machine
end

