-- ==== Sys2Proof/Laws/Decode.lean ====
section
/-! SUPPORT. The opcode table (30_encoding.md R111): one row per operation, and the byte decoder reads its BYTE rows. -/

namespace Sys2Proof

theorem opcodeTable_length : opcodeTable.length = 66 := rfl

/-- Every operation has its row in the table (R90, R111). -/
theorem opRow_mem (i : Instr) : opRow i ∈ opcodeTable := by
  cases i <;> simp only [opcodeTable, List.map, opRow] <;> repeat (first | exact List.Mem.head _ | apply List.Mem.tail)

/-- No two rows of the table have one mnemonic: one row per operation (R111). -/
theorem opcodeTable_nodup : (opcodeTable.map OpRow.mnemonic).Nodup := by decide

/-- The byte decoder reads the BYTE rows: in every mode the operation of every byte is that of the row it selects, the
default of the mode last (R92, R93, R111). -/
theorem byteRow_decodeByte (esc : Bool) (b : Byte) (p : Port) :
    byteRow esc b = some (opRow ((decodeByte esc b).instr p)) := by
  have hand : b &&& 255#8 = b := by simpa using BitVec.and_allOnes (x := b)
  by_cases h : b ∈ [0x1F#8, 0x21#8, 0x12#8, 0x1E#8, 0x18#8, 0x04#8, 0x0D#8, 0x31#8, 0x32#8, 0x3F#8]
  · simp only [List.mem_cons, List.not_mem_nil, or_false] at h
    rcases h with rfl | rfl | rfl | rfl | rfl | rfl | rfl | rfl | rfl | rfl <;> cases esc <;> rfl
  · simp only [List.mem_cons, List.not_mem_nil, or_false, not_or] at h
    obtain ⟨h0, h1, h2, h3, h4, h5, h6, h7, h8, h9⟩ := h
    cases esc <;>
      simp [byteRow, opcodeTable, opRow, RowSelector.matchesByte, RowSelector.isDefault, decodeByte,
        decodeArmed, decodeDefault, Config.esc, ByteOp.instr, hand, h0, h1, h2, h3, h4, h5, h6, h7, h8, h9]

end Sys2Proof
end

