-- ==== Sys2Proof/Laws/State.lean ====
section
/-! SUPPORT. One lemma per field per update of State: what each setter leaves in each field. -/

namespace Sys2Proof.Machine

/-! ## The per-port update -/

@[simp] theorem port_setPort (s : State) (p q : Port) (x : PortState) :
    (s.setPort p x).port q = if q = p then x else s.port q := by
  cases p <;> cases q <;> rfl
@[simp] theorem setPort_cfg (s : State) (p : Port) (x : PortState) : (s.setPort p x).cfg = s.cfg := by
  cases p <;> rfl
@[simp] theorem setPort_wdogArmed (s : State) (p : Port) (x : PortState) : (s.setPort p x).wdogArmed = s.wdogArmed := by
  cases p <;> rfl
@[simp] theorem setPort_halt (s : State) (p : Port) (x : PortState) : (s.setPort p x).halt = s.halt := by
  cases p <;> rfl
@[simp] theorem setPort_pos (s : State) (p : Port) (x : PortState) : (s.setPort p x).pos = s.pos := by
  cases p <;> rfl
@[simp] theorem setPort_calls (s : State) (p : Port) (x : PortState) : (s.setPort p x).calls = s.calls := by
  cases p <;> rfl
@[simp] theorem setPort_sched (s : State) (p : Port) (x : PortState) : (s.setPort p x).sched = s.sched := by
  cases p <;> rfl
@[simp] theorem setPort_wake (s : State) (p : Port) (x : PortState) : (s.setPort p x).wake = s.wake := by
  cases p <;> rfl
@[simp] theorem setPort_resetReq (s : State) (p : Port) (x : PortState) : (s.setPort p x).resetReq = s.resetReq := by
  cases p <;> rfl
@[simp] theorem setPort_stalled (s : State) (p : Port) (x : PortState) : (s.setPort p x).stalled = s.stalled := by
  cases p <;> rfl
@[simp] theorem setPort_ret (s : State) (p : Port) (x : PortState) : (s.setPort p x).ret = s.ret := by
  cases p <;> rfl
@[simp] theorem setPort_freeCtr (s : State) (p : Port) (x : PortState) : (s.setPort p x).freeCtr = s.freeCtr := by
  cases p <;> rfl
@[simp] theorem setPort_trace (s : State) (p : Port) (x : PortState) : (s.setPort p x).trace = s.trace := by
  cases p <;> rfl

/-! ## updRegs -/

@[simp] theorem regs_updRegs (s : State) (p q : Port) (f : _ → _) :
    (s.updRegs p f).regs q = if q = p then f (s.regs q) else s.regs q := by
  cases p <;> cases q <;> rfl
@[simp] theorem out_updRegs (s : State) (p q : Port) (f : _ → _) : (s.updRegs p f).out q = s.out q := by
  cases p <;> cases q <;> rfl
@[simp] theorem shared_updRegs (s : State) (p q : Port) (f : _ → _) : (s.updRegs p f).shared q = s.shared q := by
  cases p <;> cases q <;> rfl
@[simp] theorem env_updRegs (s : State) (p q : Port) (f : _ → _) : (s.updRegs p f).env q = s.env q := by
  cases p <;> cases q <;> rfl
@[simp] theorem updRegs_cfg (s : State) (p : Port) (f : _ → _) : (s.updRegs p f).cfg = s.cfg := by
  cases p <;> rfl
@[simp] theorem updRegs_wdogArmed (s : State) (p : Port) (f : _ → _) : (s.updRegs p f).wdogArmed = s.wdogArmed := by
  cases p <;> rfl
@[simp] theorem updRegs_halt (s : State) (p : Port) (f : _ → _) : (s.updRegs p f).halt = s.halt := by
  cases p <;> rfl
@[simp] theorem updRegs_pos (s : State) (p : Port) (f : _ → _) : (s.updRegs p f).pos = s.pos := by
  cases p <;> rfl
@[simp] theorem updRegs_calls (s : State) (p : Port) (f : _ → _) : (s.updRegs p f).calls = s.calls := by
  cases p <;> rfl
@[simp] theorem updRegs_sched (s : State) (p : Port) (f : _ → _) : (s.updRegs p f).sched = s.sched := by
  cases p <;> rfl
@[simp] theorem updRegs_wake (s : State) (p : Port) (f : _ → _) : (s.updRegs p f).wake = s.wake := by
  cases p <;> rfl
@[simp] theorem updRegs_resetReq (s : State) (p : Port) (f : _ → _) : (s.updRegs p f).resetReq = s.resetReq := by
  cases p <;> rfl
@[simp] theorem updRegs_stalled (s : State) (p : Port) (f : _ → _) : (s.updRegs p f).stalled = s.stalled := by
  cases p <;> rfl
@[simp] theorem updRegs_ret (s : State) (p : Port) (f : _ → _) : (s.updRegs p f).ret = s.ret := by
  cases p <;> rfl
@[simp] theorem updRegs_freeCtr (s : State) (p : Port) (f : _ → _) : (s.updRegs p f).freeCtr = s.freeCtr := by
  cases p <;> rfl
@[simp] theorem updRegs_trace (s : State) (p : Port) (f : _ → _) : (s.updRegs p f).trace = s.trace := by
  cases p <;> rfl

/-! ## updOut -/

@[simp] theorem out_updOut (s : State) (p q : Port) (f : _ → _) :
    (s.updOut p f).out q = if q = p then f (s.out q) else s.out q := by
  cases p <;> cases q <;> rfl
@[simp] theorem regs_updOut (s : State) (p q : Port) (f : _ → _) : (s.updOut p f).regs q = s.regs q := by
  cases p <;> cases q <;> rfl
@[simp] theorem shared_updOut (s : State) (p q : Port) (f : _ → _) : (s.updOut p f).shared q = s.shared q := by
  cases p <;> cases q <;> rfl
@[simp] theorem env_updOut (s : State) (p q : Port) (f : _ → _) : (s.updOut p f).env q = s.env q := by
  cases p <;> cases q <;> rfl
@[simp] theorem updOut_cfg (s : State) (p : Port) (f : _ → _) : (s.updOut p f).cfg = s.cfg := by
  cases p <;> rfl
@[simp] theorem updOut_wdogArmed (s : State) (p : Port) (f : _ → _) : (s.updOut p f).wdogArmed = s.wdogArmed := by
  cases p <;> rfl
@[simp] theorem updOut_halt (s : State) (p : Port) (f : _ → _) : (s.updOut p f).halt = s.halt := by
  cases p <;> rfl
@[simp] theorem updOut_pos (s : State) (p : Port) (f : _ → _) : (s.updOut p f).pos = s.pos := by
  cases p <;> rfl
@[simp] theorem updOut_calls (s : State) (p : Port) (f : _ → _) : (s.updOut p f).calls = s.calls := by
  cases p <;> rfl
@[simp] theorem updOut_sched (s : State) (p : Port) (f : _ → _) : (s.updOut p f).sched = s.sched := by
  cases p <;> rfl
@[simp] theorem updOut_wake (s : State) (p : Port) (f : _ → _) : (s.updOut p f).wake = s.wake := by
  cases p <;> rfl
@[simp] theorem updOut_resetReq (s : State) (p : Port) (f : _ → _) : (s.updOut p f).resetReq = s.resetReq := by
  cases p <;> rfl
@[simp] theorem updOut_stalled (s : State) (p : Port) (f : _ → _) : (s.updOut p f).stalled = s.stalled := by
  cases p <;> rfl
@[simp] theorem updOut_ret (s : State) (p : Port) (f : _ → _) : (s.updOut p f).ret = s.ret := by
  cases p <;> rfl
@[simp] theorem updOut_freeCtr (s : State) (p : Port) (f : _ → _) : (s.updOut p f).freeCtr = s.freeCtr := by
  cases p <;> rfl
@[simp] theorem updOut_trace (s : State) (p : Port) (f : _ → _) : (s.updOut p f).trace = s.trace := by
  cases p <;> rfl

/-! ## updShared -/

@[simp] theorem shared_updShared (s : State) (p q : Port) (f : _ → _) :
    (s.updShared p f).shared q = if q = p then f (s.shared q) else s.shared q := by
  cases p <;> cases q <;> rfl
@[simp] theorem regs_updShared (s : State) (p q : Port) (f : _ → _) : (s.updShared p f).regs q = s.regs q := by
  cases p <;> cases q <;> rfl
@[simp] theorem out_updShared (s : State) (p q : Port) (f : _ → _) : (s.updShared p f).out q = s.out q := by
  cases p <;> cases q <;> rfl
@[simp] theorem env_updShared (s : State) (p q : Port) (f : _ → _) : (s.updShared p f).env q = s.env q := by
  cases p <;> cases q <;> rfl
@[simp] theorem updShared_cfg (s : State) (p : Port) (f : _ → _) : (s.updShared p f).cfg = s.cfg := by
  cases p <;> rfl
@[simp] theorem updShared_wdogArmed (s : State) (p : Port) (f : _ → _) : (s.updShared p f).wdogArmed = s.wdogArmed := by
  cases p <;> rfl
@[simp] theorem updShared_halt (s : State) (p : Port) (f : _ → _) : (s.updShared p f).halt = s.halt := by
  cases p <;> rfl
@[simp] theorem updShared_pos (s : State) (p : Port) (f : _ → _) : (s.updShared p f).pos = s.pos := by
  cases p <;> rfl
@[simp] theorem updShared_calls (s : State) (p : Port) (f : _ → _) : (s.updShared p f).calls = s.calls := by
  cases p <;> rfl
@[simp] theorem updShared_sched (s : State) (p : Port) (f : _ → _) : (s.updShared p f).sched = s.sched := by
  cases p <;> rfl
@[simp] theorem updShared_wake (s : State) (p : Port) (f : _ → _) : (s.updShared p f).wake = s.wake := by
  cases p <;> rfl
@[simp] theorem updShared_resetReq (s : State) (p : Port) (f : _ → _) : (s.updShared p f).resetReq = s.resetReq := by
  cases p <;> rfl
@[simp] theorem updShared_stalled (s : State) (p : Port) (f : _ → _) : (s.updShared p f).stalled = s.stalled := by
  cases p <;> rfl
@[simp] theorem updShared_ret (s : State) (p : Port) (f : _ → _) : (s.updShared p f).ret = s.ret := by
  cases p <;> rfl
@[simp] theorem updShared_freeCtr (s : State) (p : Port) (f : _ → _) : (s.updShared p f).freeCtr = s.freeCtr := by
  cases p <;> rfl
@[simp] theorem updShared_trace (s : State) (p : Port) (f : _ → _) : (s.updShared p f).trace = s.trace := by
  cases p <;> rfl

/-! ## updEnv -/

@[simp] theorem env_updEnv (s : State) (p q : Port) (f : _ → _) :
    (s.updEnv p f).env q = if q = p then f (s.env q) else s.env q := by
  cases p <;> cases q <;> rfl
@[simp] theorem regs_updEnv (s : State) (p q : Port) (f : _ → _) : (s.updEnv p f).regs q = s.regs q := by
  cases p <;> cases q <;> rfl
@[simp] theorem out_updEnv (s : State) (p q : Port) (f : _ → _) : (s.updEnv p f).out q = s.out q := by
  cases p <;> cases q <;> rfl
@[simp] theorem shared_updEnv (s : State) (p q : Port) (f : _ → _) : (s.updEnv p f).shared q = s.shared q := by
  cases p <;> cases q <;> rfl
@[simp] theorem updEnv_cfg (s : State) (p : Port) (f : _ → _) : (s.updEnv p f).cfg = s.cfg := by
  cases p <;> rfl
@[simp] theorem updEnv_wdogArmed (s : State) (p : Port) (f : _ → _) : (s.updEnv p f).wdogArmed = s.wdogArmed := by
  cases p <;> rfl
@[simp] theorem updEnv_halt (s : State) (p : Port) (f : _ → _) : (s.updEnv p f).halt = s.halt := by
  cases p <;> rfl
@[simp] theorem updEnv_pos (s : State) (p : Port) (f : _ → _) : (s.updEnv p f).pos = s.pos := by
  cases p <;> rfl
@[simp] theorem updEnv_calls (s : State) (p : Port) (f : _ → _) : (s.updEnv p f).calls = s.calls := by
  cases p <;> rfl
@[simp] theorem updEnv_sched (s : State) (p : Port) (f : _ → _) : (s.updEnv p f).sched = s.sched := by
  cases p <;> rfl
@[simp] theorem updEnv_wake (s : State) (p : Port) (f : _ → _) : (s.updEnv p f).wake = s.wake := by
  cases p <;> rfl
@[simp] theorem updEnv_resetReq (s : State) (p : Port) (f : _ → _) : (s.updEnv p f).resetReq = s.resetReq := by
  cases p <;> rfl
@[simp] theorem updEnv_stalled (s : State) (p : Port) (f : _ → _) : (s.updEnv p f).stalled = s.stalled := by
  cases p <;> rfl
@[simp] theorem updEnv_ret (s : State) (p : Port) (f : _ → _) : (s.updEnv p f).ret = s.ret := by
  cases p <;> rfl
@[simp] theorem updEnv_freeCtr (s : State) (p : Port) (f : _ → _) : (s.updEnv p f).freeCtr = s.freeCtr := by
  cases p <;> rfl
@[simp] theorem updEnv_trace (s : State) (p : Port) (f : _ → _) : (s.updEnv p f).trace = s.trace := by
  cases p <;> rfl

/-! ## setWdogArmed -/

@[simp] theorem port_setWdogArmed (s : State) (x : _) (q : Port) : (s.setWdogArmed x).port q = s.port q := by
  cases q <;> rfl
@[simp] theorem regs_setWdogArmed (s : State) (x : _) (q : Port) : (s.setWdogArmed x).regs q = s.regs q := by
  cases q <;> rfl
@[simp] theorem out_setWdogArmed (s : State) (x : _) (q : Port) : (s.setWdogArmed x).out q = s.out q := by
  cases q <;> rfl
@[simp] theorem shared_setWdogArmed (s : State) (x : _) (q : Port) : (s.setWdogArmed x).shared q = s.shared q := by
  cases q <;> rfl
@[simp] theorem env_setWdogArmed (s : State) (x : _) (q : Port) : (s.setWdogArmed x).env q = s.env q := by
  cases q <;> rfl
@[simp] theorem setWdogArmed_cfg (s : State) (x : _) : (s.setWdogArmed x).cfg = s.cfg := rfl
@[simp] theorem setWdogArmed_wdogArmed (s : State) (x : _) : (s.setWdogArmed x).wdogArmed = x := rfl
@[simp] theorem setWdogArmed_halt (s : State) (x : _) : (s.setWdogArmed x).halt = s.halt := rfl
@[simp] theorem setWdogArmed_pos (s : State) (x : _) : (s.setWdogArmed x).pos = s.pos := rfl
@[simp] theorem setWdogArmed_calls (s : State) (x : _) : (s.setWdogArmed x).calls = s.calls := rfl
@[simp] theorem setWdogArmed_sched (s : State) (x : _) : (s.setWdogArmed x).sched = s.sched := rfl
@[simp] theorem setWdogArmed_wake (s : State) (x : _) : (s.setWdogArmed x).wake = s.wake := rfl
@[simp] theorem setWdogArmed_resetReq (s : State) (x : _) : (s.setWdogArmed x).resetReq = s.resetReq := rfl
@[simp] theorem setWdogArmed_stalled (s : State) (x : _) : (s.setWdogArmed x).stalled = s.stalled := rfl
@[simp] theorem setWdogArmed_ret (s : State) (x : _) : (s.setWdogArmed x).ret = s.ret := rfl
@[simp] theorem setWdogArmed_freeCtr (s : State) (x : _) : (s.setWdogArmed x).freeCtr = s.freeCtr := rfl
@[simp] theorem setWdogArmed_trace (s : State) (x : _) : (s.setWdogArmed x).trace = s.trace := rfl

/-! ## setHalt -/

@[simp] theorem port_setHalt (s : State) (x : _) (q : Port) : (s.setHalt x).port q = s.port q := by
  cases q <;> rfl
@[simp] theorem regs_setHalt (s : State) (x : _) (q : Port) : (s.setHalt x).regs q = s.regs q := by
  cases q <;> rfl
@[simp] theorem out_setHalt (s : State) (x : _) (q : Port) : (s.setHalt x).out q = s.out q := by
  cases q <;> rfl
@[simp] theorem shared_setHalt (s : State) (x : _) (q : Port) : (s.setHalt x).shared q = s.shared q := by
  cases q <;> rfl
@[simp] theorem env_setHalt (s : State) (x : _) (q : Port) : (s.setHalt x).env q = s.env q := by
  cases q <;> rfl
@[simp] theorem setHalt_cfg (s : State) (x : _) : (s.setHalt x).cfg = s.cfg := rfl
@[simp] theorem setHalt_wdogArmed (s : State) (x : _) : (s.setHalt x).wdogArmed = s.wdogArmed := rfl
@[simp] theorem setHalt_halt (s : State) (x : _) : (s.setHalt x).halt = x := rfl
@[simp] theorem setHalt_pos (s : State) (x : _) : (s.setHalt x).pos = s.pos := rfl
@[simp] theorem setHalt_calls (s : State) (x : _) : (s.setHalt x).calls = s.calls := rfl
@[simp] theorem setHalt_sched (s : State) (x : _) : (s.setHalt x).sched = s.sched := rfl
@[simp] theorem setHalt_wake (s : State) (x : _) : (s.setHalt x).wake = s.wake := rfl
@[simp] theorem setHalt_resetReq (s : State) (x : _) : (s.setHalt x).resetReq = s.resetReq := rfl
@[simp] theorem setHalt_stalled (s : State) (x : _) : (s.setHalt x).stalled = s.stalled := rfl
@[simp] theorem setHalt_ret (s : State) (x : _) : (s.setHalt x).ret = s.ret := rfl
@[simp] theorem setHalt_freeCtr (s : State) (x : _) : (s.setHalt x).freeCtr = s.freeCtr := rfl
@[simp] theorem setHalt_trace (s : State) (x : _) : (s.setHalt x).trace = s.trace := rfl

/-! ## setPos -/

@[simp] theorem port_setPos (s : State) (x : _) (q : Port) : (s.setPos x).port q = s.port q := by
  cases q <;> rfl
@[simp] theorem regs_setPos (s : State) (x : _) (q : Port) : (s.setPos x).regs q = s.regs q := by
  cases q <;> rfl
@[simp] theorem out_setPos (s : State) (x : _) (q : Port) : (s.setPos x).out q = s.out q := by
  cases q <;> rfl
@[simp] theorem shared_setPos (s : State) (x : _) (q : Port) : (s.setPos x).shared q = s.shared q := by
  cases q <;> rfl
@[simp] theorem env_setPos (s : State) (x : _) (q : Port) : (s.setPos x).env q = s.env q := by
  cases q <;> rfl
@[simp] theorem setPos_cfg (s : State) (x : _) : (s.setPos x).cfg = s.cfg := rfl
@[simp] theorem setPos_wdogArmed (s : State) (x : _) : (s.setPos x).wdogArmed = s.wdogArmed := rfl
@[simp] theorem setPos_halt (s : State) (x : _) : (s.setPos x).halt = s.halt := rfl
@[simp] theorem setPos_pos (s : State) (x : _) : (s.setPos x).pos = x := rfl
@[simp] theorem setPos_calls (s : State) (x : _) : (s.setPos x).calls = s.calls := rfl
@[simp] theorem setPos_sched (s : State) (x : _) : (s.setPos x).sched = s.sched := rfl
@[simp] theorem setPos_wake (s : State) (x : _) : (s.setPos x).wake = s.wake := rfl
@[simp] theorem setPos_resetReq (s : State) (x : _) : (s.setPos x).resetReq = s.resetReq := rfl
@[simp] theorem setPos_stalled (s : State) (x : _) : (s.setPos x).stalled = s.stalled := rfl
@[simp] theorem setPos_ret (s : State) (x : _) : (s.setPos x).ret = s.ret := rfl
@[simp] theorem setPos_freeCtr (s : State) (x : _) : (s.setPos x).freeCtr = s.freeCtr := rfl
@[simp] theorem setPos_trace (s : State) (x : _) : (s.setPos x).trace = s.trace := rfl

/-! ## setCalls -/

@[simp] theorem port_setCalls (s : State) (x : _) (q : Port) : (s.setCalls x).port q = s.port q := by
  cases q <;> rfl
@[simp] theorem regs_setCalls (s : State) (x : _) (q : Port) : (s.setCalls x).regs q = s.regs q := by
  cases q <;> rfl
@[simp] theorem out_setCalls (s : State) (x : _) (q : Port) : (s.setCalls x).out q = s.out q := by
  cases q <;> rfl
@[simp] theorem shared_setCalls (s : State) (x : _) (q : Port) : (s.setCalls x).shared q = s.shared q := by
  cases q <;> rfl
@[simp] theorem env_setCalls (s : State) (x : _) (q : Port) : (s.setCalls x).env q = s.env q := by
  cases q <;> rfl
@[simp] theorem setCalls_cfg (s : State) (x : _) : (s.setCalls x).cfg = s.cfg := rfl
@[simp] theorem setCalls_wdogArmed (s : State) (x : _) : (s.setCalls x).wdogArmed = s.wdogArmed := rfl
@[simp] theorem setCalls_halt (s : State) (x : _) : (s.setCalls x).halt = s.halt := rfl
@[simp] theorem setCalls_pos (s : State) (x : _) : (s.setCalls x).pos = s.pos := rfl
@[simp] theorem setCalls_calls (s : State) (x : _) : (s.setCalls x).calls = x := rfl
@[simp] theorem setCalls_sched (s : State) (x : _) : (s.setCalls x).sched = s.sched := rfl
@[simp] theorem setCalls_wake (s : State) (x : _) : (s.setCalls x).wake = s.wake := rfl
@[simp] theorem setCalls_resetReq (s : State) (x : _) : (s.setCalls x).resetReq = s.resetReq := rfl
@[simp] theorem setCalls_stalled (s : State) (x : _) : (s.setCalls x).stalled = s.stalled := rfl
@[simp] theorem setCalls_ret (s : State) (x : _) : (s.setCalls x).ret = s.ret := rfl
@[simp] theorem setCalls_freeCtr (s : State) (x : _) : (s.setCalls x).freeCtr = s.freeCtr := rfl
@[simp] theorem setCalls_trace (s : State) (x : _) : (s.setCalls x).trace = s.trace := rfl

/-! ## setSched -/

@[simp] theorem port_setSched (s : State) (x : _) (q : Port) : (s.setSched x).port q = s.port q := by
  cases q <;> rfl
@[simp] theorem regs_setSched (s : State) (x : _) (q : Port) : (s.setSched x).regs q = s.regs q := by
  cases q <;> rfl
@[simp] theorem out_setSched (s : State) (x : _) (q : Port) : (s.setSched x).out q = s.out q := by
  cases q <;> rfl
@[simp] theorem shared_setSched (s : State) (x : _) (q : Port) : (s.setSched x).shared q = s.shared q := by
  cases q <;> rfl
@[simp] theorem env_setSched (s : State) (x : _) (q : Port) : (s.setSched x).env q = s.env q := by
  cases q <;> rfl
@[simp] theorem setSched_cfg (s : State) (x : _) : (s.setSched x).cfg = s.cfg := rfl
@[simp] theorem setSched_wdogArmed (s : State) (x : _) : (s.setSched x).wdogArmed = s.wdogArmed := rfl
@[simp] theorem setSched_halt (s : State) (x : _) : (s.setSched x).halt = s.halt := rfl
@[simp] theorem setSched_pos (s : State) (x : _) : (s.setSched x).pos = s.pos := rfl
@[simp] theorem setSched_calls (s : State) (x : _) : (s.setSched x).calls = s.calls := rfl
@[simp] theorem setSched_sched (s : State) (x : _) : (s.setSched x).sched = x := rfl
@[simp] theorem setSched_wake (s : State) (x : _) : (s.setSched x).wake = s.wake := rfl
@[simp] theorem setSched_resetReq (s : State) (x : _) : (s.setSched x).resetReq = s.resetReq := rfl
@[simp] theorem setSched_stalled (s : State) (x : _) : (s.setSched x).stalled = s.stalled := rfl
@[simp] theorem setSched_ret (s : State) (x : _) : (s.setSched x).ret = s.ret := rfl
@[simp] theorem setSched_freeCtr (s : State) (x : _) : (s.setSched x).freeCtr = s.freeCtr := rfl
@[simp] theorem setSched_trace (s : State) (x : _) : (s.setSched x).trace = s.trace := rfl

/-! ## setWake -/

@[simp] theorem port_setWake (s : State) (x : _) (q : Port) : (s.setWake x).port q = s.port q := by
  cases q <;> rfl
@[simp] theorem regs_setWake (s : State) (x : _) (q : Port) : (s.setWake x).regs q = s.regs q := by
  cases q <;> rfl
@[simp] theorem out_setWake (s : State) (x : _) (q : Port) : (s.setWake x).out q = s.out q := by
  cases q <;> rfl
@[simp] theorem shared_setWake (s : State) (x : _) (q : Port) : (s.setWake x).shared q = s.shared q := by
  cases q <;> rfl
@[simp] theorem env_setWake (s : State) (x : _) (q : Port) : (s.setWake x).env q = s.env q := by
  cases q <;> rfl
@[simp] theorem setWake_cfg (s : State) (x : _) : (s.setWake x).cfg = s.cfg := rfl
@[simp] theorem setWake_wdogArmed (s : State) (x : _) : (s.setWake x).wdogArmed = s.wdogArmed := rfl
@[simp] theorem setWake_halt (s : State) (x : _) : (s.setWake x).halt = s.halt := rfl
@[simp] theorem setWake_pos (s : State) (x : _) : (s.setWake x).pos = s.pos := rfl
@[simp] theorem setWake_calls (s : State) (x : _) : (s.setWake x).calls = s.calls := rfl
@[simp] theorem setWake_sched (s : State) (x : _) : (s.setWake x).sched = s.sched := rfl
@[simp] theorem setWake_wake (s : State) (x : _) : (s.setWake x).wake = x := rfl
@[simp] theorem setWake_resetReq (s : State) (x : _) : (s.setWake x).resetReq = s.resetReq := rfl
@[simp] theorem setWake_stalled (s : State) (x : _) : (s.setWake x).stalled = s.stalled := rfl
@[simp] theorem setWake_ret (s : State) (x : _) : (s.setWake x).ret = s.ret := rfl
@[simp] theorem setWake_freeCtr (s : State) (x : _) : (s.setWake x).freeCtr = s.freeCtr := rfl
@[simp] theorem setWake_trace (s : State) (x : _) : (s.setWake x).trace = s.trace := rfl

/-! ## setResetReq -/

@[simp] theorem port_setResetReq (s : State) (x : _) (q : Port) : (s.setResetReq x).port q = s.port q := by
  cases q <;> rfl
@[simp] theorem regs_setResetReq (s : State) (x : _) (q : Port) : (s.setResetReq x).regs q = s.regs q := by
  cases q <;> rfl
@[simp] theorem out_setResetReq (s : State) (x : _) (q : Port) : (s.setResetReq x).out q = s.out q := by
  cases q <;> rfl
@[simp] theorem shared_setResetReq (s : State) (x : _) (q : Port) : (s.setResetReq x).shared q = s.shared q := by
  cases q <;> rfl
@[simp] theorem env_setResetReq (s : State) (x : _) (q : Port) : (s.setResetReq x).env q = s.env q := by
  cases q <;> rfl
@[simp] theorem setResetReq_cfg (s : State) (x : _) : (s.setResetReq x).cfg = s.cfg := rfl
@[simp] theorem setResetReq_wdogArmed (s : State) (x : _) : (s.setResetReq x).wdogArmed = s.wdogArmed := rfl
@[simp] theorem setResetReq_halt (s : State) (x : _) : (s.setResetReq x).halt = s.halt := rfl
@[simp] theorem setResetReq_pos (s : State) (x : _) : (s.setResetReq x).pos = s.pos := rfl
@[simp] theorem setResetReq_calls (s : State) (x : _) : (s.setResetReq x).calls = s.calls := rfl
@[simp] theorem setResetReq_sched (s : State) (x : _) : (s.setResetReq x).sched = s.sched := rfl
@[simp] theorem setResetReq_wake (s : State) (x : _) : (s.setResetReq x).wake = s.wake := rfl
@[simp] theorem setResetReq_resetReq (s : State) (x : _) : (s.setResetReq x).resetReq = x := rfl
@[simp] theorem setResetReq_stalled (s : State) (x : _) : (s.setResetReq x).stalled = s.stalled := rfl
@[simp] theorem setResetReq_ret (s : State) (x : _) : (s.setResetReq x).ret = s.ret := rfl
@[simp] theorem setResetReq_freeCtr (s : State) (x : _) : (s.setResetReq x).freeCtr = s.freeCtr := rfl
@[simp] theorem setResetReq_trace (s : State) (x : _) : (s.setResetReq x).trace = s.trace := rfl

/-! ## setStalled -/

@[simp] theorem port_setStalled (s : State) (x : _) (q : Port) : (s.setStalled x).port q = s.port q := by
  cases q <;> rfl
@[simp] theorem regs_setStalled (s : State) (x : _) (q : Port) : (s.setStalled x).regs q = s.regs q := by
  cases q <;> rfl
@[simp] theorem out_setStalled (s : State) (x : _) (q : Port) : (s.setStalled x).out q = s.out q := by
  cases q <;> rfl
@[simp] theorem shared_setStalled (s : State) (x : _) (q : Port) : (s.setStalled x).shared q = s.shared q := by
  cases q <;> rfl
@[simp] theorem env_setStalled (s : State) (x : _) (q : Port) : (s.setStalled x).env q = s.env q := by
  cases q <;> rfl
@[simp] theorem setStalled_cfg (s : State) (x : _) : (s.setStalled x).cfg = s.cfg := rfl
@[simp] theorem setStalled_wdogArmed (s : State) (x : _) : (s.setStalled x).wdogArmed = s.wdogArmed := rfl
@[simp] theorem setStalled_halt (s : State) (x : _) : (s.setStalled x).halt = s.halt := rfl
@[simp] theorem setStalled_pos (s : State) (x : _) : (s.setStalled x).pos = s.pos := rfl
@[simp] theorem setStalled_calls (s : State) (x : _) : (s.setStalled x).calls = s.calls := rfl
@[simp] theorem setStalled_sched (s : State) (x : _) : (s.setStalled x).sched = s.sched := rfl
@[simp] theorem setStalled_wake (s : State) (x : _) : (s.setStalled x).wake = s.wake := rfl
@[simp] theorem setStalled_resetReq (s : State) (x : _) : (s.setStalled x).resetReq = s.resetReq := rfl
@[simp] theorem setStalled_stalled (s : State) (x : _) : (s.setStalled x).stalled = x := rfl
@[simp] theorem setStalled_ret (s : State) (x : _) : (s.setStalled x).ret = s.ret := rfl
@[simp] theorem setStalled_freeCtr (s : State) (x : _) : (s.setStalled x).freeCtr = s.freeCtr := rfl
@[simp] theorem setStalled_trace (s : State) (x : _) : (s.setStalled x).trace = s.trace := rfl

/-! ## setRet -/

@[simp] theorem port_setRet (s : State) (x : _) (q : Port) : (s.setRet x).port q = s.port q := by
  cases q <;> rfl
@[simp] theorem regs_setRet (s : State) (x : _) (q : Port) : (s.setRet x).regs q = s.regs q := by
  cases q <;> rfl
@[simp] theorem out_setRet (s : State) (x : _) (q : Port) : (s.setRet x).out q = s.out q := by
  cases q <;> rfl
@[simp] theorem shared_setRet (s : State) (x : _) (q : Port) : (s.setRet x).shared q = s.shared q := by
  cases q <;> rfl
@[simp] theorem env_setRet (s : State) (x : _) (q : Port) : (s.setRet x).env q = s.env q := by
  cases q <;> rfl
@[simp] theorem setRet_cfg (s : State) (x : _) : (s.setRet x).cfg = s.cfg := rfl
@[simp] theorem setRet_wdogArmed (s : State) (x : _) : (s.setRet x).wdogArmed = s.wdogArmed := rfl
@[simp] theorem setRet_halt (s : State) (x : _) : (s.setRet x).halt = s.halt := rfl
@[simp] theorem setRet_pos (s : State) (x : _) : (s.setRet x).pos = s.pos := rfl
@[simp] theorem setRet_calls (s : State) (x : _) : (s.setRet x).calls = s.calls := rfl
@[simp] theorem setRet_sched (s : State) (x : _) : (s.setRet x).sched = s.sched := rfl
@[simp] theorem setRet_wake (s : State) (x : _) : (s.setRet x).wake = s.wake := rfl
@[simp] theorem setRet_resetReq (s : State) (x : _) : (s.setRet x).resetReq = s.resetReq := rfl
@[simp] theorem setRet_stalled (s : State) (x : _) : (s.setRet x).stalled = s.stalled := rfl
@[simp] theorem setRet_ret (s : State) (x : _) : (s.setRet x).ret = x := rfl
@[simp] theorem setRet_freeCtr (s : State) (x : _) : (s.setRet x).freeCtr = s.freeCtr := rfl
@[simp] theorem setRet_trace (s : State) (x : _) : (s.setRet x).trace = s.trace := rfl

/-! ## setFreeCtr -/

@[simp] theorem port_setFreeCtr (s : State) (x : _) (q : Port) : (s.setFreeCtr x).port q = s.port q := by
  cases q <;> rfl
@[simp] theorem regs_setFreeCtr (s : State) (x : _) (q : Port) : (s.setFreeCtr x).regs q = s.regs q := by
  cases q <;> rfl
@[simp] theorem out_setFreeCtr (s : State) (x : _) (q : Port) : (s.setFreeCtr x).out q = s.out q := by
  cases q <;> rfl
@[simp] theorem shared_setFreeCtr (s : State) (x : _) (q : Port) : (s.setFreeCtr x).shared q = s.shared q := by
  cases q <;> rfl
@[simp] theorem env_setFreeCtr (s : State) (x : _) (q : Port) : (s.setFreeCtr x).env q = s.env q := by
  cases q <;> rfl
@[simp] theorem setFreeCtr_cfg (s : State) (x : _) : (s.setFreeCtr x).cfg = s.cfg := rfl
@[simp] theorem setFreeCtr_wdogArmed (s : State) (x : _) : (s.setFreeCtr x).wdogArmed = s.wdogArmed := rfl
@[simp] theorem setFreeCtr_halt (s : State) (x : _) : (s.setFreeCtr x).halt = s.halt := rfl
@[simp] theorem setFreeCtr_pos (s : State) (x : _) : (s.setFreeCtr x).pos = s.pos := rfl
@[simp] theorem setFreeCtr_calls (s : State) (x : _) : (s.setFreeCtr x).calls = s.calls := rfl
@[simp] theorem setFreeCtr_sched (s : State) (x : _) : (s.setFreeCtr x).sched = s.sched := rfl
@[simp] theorem setFreeCtr_wake (s : State) (x : _) : (s.setFreeCtr x).wake = s.wake := rfl
@[simp] theorem setFreeCtr_resetReq (s : State) (x : _) : (s.setFreeCtr x).resetReq = s.resetReq := rfl
@[simp] theorem setFreeCtr_stalled (s : State) (x : _) : (s.setFreeCtr x).stalled = s.stalled := rfl
@[simp] theorem setFreeCtr_ret (s : State) (x : _) : (s.setFreeCtr x).ret = s.ret := rfl
@[simp] theorem setFreeCtr_freeCtr (s : State) (x : _) : (s.setFreeCtr x).freeCtr = x := rfl
@[simp] theorem setFreeCtr_trace (s : State) (x : _) : (s.setFreeCtr x).trace = s.trace := rfl

/-! ## setTrace -/

@[simp] theorem port_setTrace (s : State) (x : _) (q : Port) : (s.setTrace x).port q = s.port q := by
  cases q <;> rfl
@[simp] theorem regs_setTrace (s : State) (x : _) (q : Port) : (s.setTrace x).regs q = s.regs q := by
  cases q <;> rfl
@[simp] theorem out_setTrace (s : State) (x : _) (q : Port) : (s.setTrace x).out q = s.out q := by
  cases q <;> rfl
@[simp] theorem shared_setTrace (s : State) (x : _) (q : Port) : (s.setTrace x).shared q = s.shared q := by
  cases q <;> rfl
@[simp] theorem env_setTrace (s : State) (x : _) (q : Port) : (s.setTrace x).env q = s.env q := by
  cases q <;> rfl
@[simp] theorem setTrace_cfg (s : State) (x : _) : (s.setTrace x).cfg = s.cfg := rfl
@[simp] theorem setTrace_wdogArmed (s : State) (x : _) : (s.setTrace x).wdogArmed = s.wdogArmed := rfl
@[simp] theorem setTrace_halt (s : State) (x : _) : (s.setTrace x).halt = s.halt := rfl
@[simp] theorem setTrace_pos (s : State) (x : _) : (s.setTrace x).pos = s.pos := rfl
@[simp] theorem setTrace_calls (s : State) (x : _) : (s.setTrace x).calls = s.calls := rfl
@[simp] theorem setTrace_sched (s : State) (x : _) : (s.setTrace x).sched = s.sched := rfl
@[simp] theorem setTrace_wake (s : State) (x : _) : (s.setTrace x).wake = s.wake := rfl
@[simp] theorem setTrace_resetReq (s : State) (x : _) : (s.setTrace x).resetReq = s.resetReq := rfl
@[simp] theorem setTrace_stalled (s : State) (x : _) : (s.setTrace x).stalled = s.stalled := rfl
@[simp] theorem setTrace_ret (s : State) (x : _) : (s.setTrace x).ret = s.ret := rfl
@[simp] theorem setTrace_freeCtr (s : State) (x : _) : (s.setTrace x).freeCtr = s.freeCtr := rfl
@[simp] theorem setTrace_trace (s : State) (x : _) : (s.setTrace x).trace = x := rfl

/-! ## Two states are equal when every field is -/

theorem state_ext_ports {s t : State} (hc : s.cfg = t.cfg) (hr : ∀ p, s.regs p = t.regs p) (ho : ∀ p, s.out p = t.out p)
    (hs : ∀ p, s.shared p = t.shared p) (he : ∀ p, s.env p = t.env p) (hw : s.wdogArmed = t.wdogArmed)
    (hh : s.halt = t.halt) (hp : s.pos = t.pos) (hcl : s.calls = t.calls) (hsc : s.sched = t.sched)
    (hwk : s.wake = t.wake) (hrr : s.resetReq = t.resetReq)
    (hst : s.stalled = t.stalled) (hrt : s.ret = t.ret) (hf : s.freeCtr = t.freeCtr)
    (ht : s.trace = t.trace) : s = t := by
  have port_eq : ∀ p, s.port p = t.port p := fun p => by
    have h1 := hr p; have h2 := ho p; have h3 := hs p; have h4 := he p
    simp only [State.regs, State.out, State.shared, State.env] at h1 h2 h3 h4
    rcases hx : s.port p with ⟨a, b, c, d⟩
    rcases hy : t.port p with ⟨a', b', c', d'⟩
    simp_all
  have h0 : s.port0 = t.port0 := port_eq .p0
  have h1 : s.port1 = t.port1 := port_eq .p1
  cases s; cases t; simp_all

end Sys2Proof.Machine
end

