-- ==== Sys2Proof/Laws/Ops.lean ====
section
/-! SUPPORT. What the shared operations leave alone: the fields that only `MAIN` writes survive every interrupt point and
every primitive but an output write, field by field. -/

namespace Sys2Proof.Machine

/-! ## takeChipIrq -/

@[simp] theorem takeChipIrq_cfg (s : State) (p : Port) : (takeChipIrq p s).cfg = s.cfg := by
  simp [takeChipIrq, maskLine, setPending]
@[simp] theorem takeChipIrq_wdogArmed (s : State) (p : Port) : (takeChipIrq p s).wdogArmed = s.wdogArmed := by
  simp [takeChipIrq, maskLine, setPending]
@[simp] theorem takeChipIrq_halt (s : State) (p : Port) : (takeChipIrq p s).halt = s.halt := by
  simp [takeChipIrq, maskLine, setPending]
@[simp] theorem takeChipIrq_pos (s : State) (p : Port) : (takeChipIrq p s).pos = s.pos := by
  simp [takeChipIrq, maskLine, setPending]
@[simp] theorem takeChipIrq_ret (s : State) (p : Port) : (takeChipIrq p s).ret = s.ret := by
  simp [takeChipIrq, maskLine, setPending]
@[simp] theorem takeChipIrq_trace (s : State) (p : Port) : (takeChipIrq p s).trace = s.trace := by
  simp [takeChipIrq, maskLine, setPending]
@[simp] theorem takeChipIrq_regs (s : State) (p : Port) (q : Port) : (takeChipIrq p s).regs q = s.regs q := by
  simp [takeChipIrq, maskLine, setPending]
@[simp] theorem takeChipIrq_out (s : State) (p : Port) (q : Port) : (takeChipIrq p s).out q = s.out q := by
  simp [takeChipIrq, maskLine, setPending]
@[simp] theorem takeChipIrq_live (s : State) (p : Port) (q : Port) : (takeChipIrq p s).live q = s.live q := by
  simp [State.live]
@[simp] theorem takeChipIrq_running (s : State) (p : Port) : running (takeChipIrq p s) = running s := by
  simp [running]

/-! ## chipIrq -/

@[simp] theorem chipIrq_cfg (s : State) : (chipIrq s).cfg = s.cfg := by
  unfold chipIrq; split_ifs <;> simp
@[simp] theorem chipIrq_wdogArmed (s : State) : (chipIrq s).wdogArmed = s.wdogArmed := by
  unfold chipIrq; split_ifs <;> simp
@[simp] theorem chipIrq_halt (s : State) : (chipIrq s).halt = s.halt := by
  unfold chipIrq; split_ifs <;> simp
@[simp] theorem chipIrq_pos (s : State) : (chipIrq s).pos = s.pos := by
  unfold chipIrq; split_ifs <;> simp
@[simp] theorem chipIrq_ret (s : State) : (chipIrq s).ret = s.ret := by
  unfold chipIrq; split_ifs <;> simp
@[simp] theorem chipIrq_trace (s : State) : (chipIrq s).trace = s.trace := by
  unfold chipIrq; split_ifs <;> simp
@[simp] theorem chipIrq_regs (s : State) (q : Port) : (chipIrq s).regs q = s.regs q := by
  unfold chipIrq; split_ifs <;> simp
@[simp] theorem chipIrq_out (s : State) (q : Port) : (chipIrq s).out q = s.out q := by
  unfold chipIrq; split_ifs <;> simp
@[simp] theorem chipIrq_live (s : State) (q : Port) : (chipIrq s).live q = s.live q := by
  simp [State.live]
@[simp] theorem chipIrq_running (s : State) : running (chipIrq s) = running s := by
  simp [running]

/-! ## takeIrqs -/

@[simp] theorem takeIrqs_cfg (s : State) : (takeIrqs s).cfg = s.cfg := by
  simp [takeIrqs]
@[simp] theorem takeIrqs_wdogArmed (s : State) : (takeIrqs s).wdogArmed = s.wdogArmed := by
  simp [takeIrqs]
@[simp] theorem takeIrqs_halt (s : State) : (takeIrqs s).halt = s.halt := by
  simp [takeIrqs]
@[simp] theorem takeIrqs_pos (s : State) : (takeIrqs s).pos = s.pos := by
  simp [takeIrqs]
@[simp] theorem takeIrqs_ret (s : State) : (takeIrqs s).ret = s.ret := by
  simp [takeIrqs]
@[simp] theorem takeIrqs_trace (s : State) : (takeIrqs s).trace = s.trace := by
  simp [takeIrqs]
@[simp] theorem takeIrqs_regs (s : State) (q : Port) : (takeIrqs s).regs q = s.regs q := by
  simp [takeIrqs]
@[simp] theorem takeIrqs_out (s : State) (q : Port) : (takeIrqs s).out q = s.out q := by
  simp [takeIrqs]
@[simp] theorem takeIrqs_live (s : State) (q : Port) : (takeIrqs s).live q = s.live q := by
  simp [State.live]
@[simp] theorem takeIrqs_running (s : State) : running (takeIrqs s) = running s := by
  simp [running]

/-! ## ringPut -/

@[simp] theorem ringPut_cfg (s : State) (p : Port) (b : Byte) : (ringPut p b s).cfg = s.cfg := by
  simp [ringPut]
@[simp] theorem ringPut_wdogArmed (s : State) (p : Port) (b : Byte) : (ringPut p b s).wdogArmed = s.wdogArmed := by
  simp [ringPut]
@[simp] theorem ringPut_halt (s : State) (p : Port) (b : Byte) : (ringPut p b s).halt = s.halt := by
  simp [ringPut]
@[simp] theorem ringPut_pos (s : State) (p : Port) (b : Byte) : (ringPut p b s).pos = s.pos := by
  simp [ringPut]
@[simp] theorem ringPut_ret (s : State) (p : Port) (b : Byte) : (ringPut p b s).ret = s.ret := by
  simp [ringPut]
@[simp] theorem ringPut_trace (s : State) (p : Port) (b : Byte) : (ringPut p b s).trace = s.trace := by
  simp [ringPut]
@[simp] theorem ringPut_regs (s : State) (p : Port) (b : Byte) (q : Port) : (ringPut p b s).regs q = s.regs q := by
  simp [ringPut]
@[simp] theorem ringPut_out (s : State) (p : Port) (b : Byte) (q : Port) : (ringPut p b s).out q = s.out q := by
  simp [ringPut]
@[simp] theorem ringPut_live (s : State) (p : Port) (b : Byte) (q : Port) : (ringPut p b s).live q = s.live q := by
  simp [State.live]
@[simp] theorem ringPut_running (s : State) (p : Port) (b : Byte) : running (ringPut p b s) = running s := by
  simp [running]

/-! ## uartReceive -/

@[simp] theorem uartReceive_cfg (s : State) (p : Port) (b : Byte) : (uartReceive p b s).cfg = s.cfg := by
  unfold uartReceive; split_ifs <;> simp
@[simp] theorem uartReceive_wdogArmed (s : State) (p : Port) (b : Byte) : (uartReceive p b s).wdogArmed = s.wdogArmed := by
  unfold uartReceive; split_ifs <;> simp
@[simp] theorem uartReceive_halt (s : State) (p : Port) (b : Byte) : (uartReceive p b s).halt = s.halt := by
  unfold uartReceive; split_ifs <;> simp
@[simp] theorem uartReceive_pos (s : State) (p : Port) (b : Byte) : (uartReceive p b s).pos = s.pos := by
  unfold uartReceive; split_ifs <;> simp
@[simp] theorem uartReceive_ret (s : State) (p : Port) (b : Byte) : (uartReceive p b s).ret = s.ret := by
  unfold uartReceive; split_ifs <;> simp
@[simp] theorem uartReceive_trace (s : State) (p : Port) (b : Byte) : (uartReceive p b s).trace = s.trace := by
  unfold uartReceive; split_ifs <;> simp
@[simp] theorem uartReceive_regs (s : State) (p : Port) (b : Byte) (q : Port) : (uartReceive p b s).regs q = s.regs q := by
  unfold uartReceive; split_ifs <;> simp
@[simp] theorem uartReceive_out (s : State) (p : Port) (b : Byte) (q : Port) : (uartReceive p b s).out q = s.out q := by
  unfold uartReceive; split_ifs <;> simp
@[simp] theorem uartReceive_live (s : State) (p : Port) (b : Byte) (q : Port) : (uartReceive p b s).live q = s.live q := by
  simp [State.live]
@[simp] theorem uartReceive_running (s : State) (p : Port) (b : Byte) : running (uartReceive p b s) = running s := by
  simp [running]

/-! ## applyMove -/

@[simp] theorem applyMove_cfg (s : State) (m : EnvMove) : (applyMove m s).cfg = s.cfg := by
  cases m <;> simp [applyMove, hostActivity] <;> split_ifs <;> simp
@[simp] theorem applyMove_wdogArmed (s : State) (m : EnvMove) : (applyMove m s).wdogArmed = s.wdogArmed := by
  cases m <;> simp [applyMove, hostActivity] <;> split_ifs <;> simp
@[simp] theorem applyMove_halt (s : State) (m : EnvMove) : (applyMove m s).halt = s.halt := by
  cases m <;> simp [applyMove, hostActivity] <;> split_ifs <;> simp
@[simp] theorem applyMove_pos (s : State) (m : EnvMove) : (applyMove m s).pos = s.pos := by
  cases m <;> simp [applyMove, hostActivity] <;> split_ifs <;> simp
@[simp] theorem applyMove_ret (s : State) (m : EnvMove) : (applyMove m s).ret = s.ret := by
  cases m <;> simp [applyMove, hostActivity] <;> split_ifs <;> simp
@[simp] theorem applyMove_trace (s : State) (m : EnvMove) : (applyMove m s).trace = s.trace := by
  cases m <;> simp [applyMove, hostActivity] <;> split_ifs <;> simp
@[simp] theorem applyMove_regs (s : State) (m : EnvMove) (q : Port) : (applyMove m s).regs q = s.regs q := by
  cases m <;> simp [applyMove, hostActivity] <;> split_ifs <;> simp
@[simp] theorem applyMove_out (s : State) (m : EnvMove) (q : Port) : (applyMove m s).out q = s.out q := by
  cases m <;> simp [applyMove, hostActivity] <;> split_ifs <;> simp
@[simp] theorem applyMove_live (s : State) (m : EnvMove) (q : Port) : (applyMove m s).live q = s.live q := by
  simp [State.live]
@[simp] theorem applyMove_running (s : State) (m : EnvMove) : running (applyMove m s) = running s := by
  simp [running]

/-! ## playMoves -/

@[simp] theorem playMoves_cfg (s : State) (ms : List EnvMove) : (playMoves ms s).cfg = s.cfg := by
  induction ms generalizing s with
  | nil => rfl
  | cons m ms ih => unfold playMoves; split_ifs <;> simp [ih]
@[simp] theorem playMoves_wdogArmed (s : State) (ms : List EnvMove) : (playMoves ms s).wdogArmed = s.wdogArmed := by
  induction ms generalizing s with
  | nil => rfl
  | cons m ms ih => unfold playMoves; split_ifs <;> simp [ih]
@[simp] theorem playMoves_halt (s : State) (ms : List EnvMove) : (playMoves ms s).halt = s.halt := by
  induction ms generalizing s with
  | nil => rfl
  | cons m ms ih => unfold playMoves; split_ifs <;> simp [ih]
@[simp] theorem playMoves_pos (s : State) (ms : List EnvMove) : (playMoves ms s).pos = s.pos := by
  induction ms generalizing s with
  | nil => rfl
  | cons m ms ih => unfold playMoves; split_ifs <;> simp [ih]
@[simp] theorem playMoves_ret (s : State) (ms : List EnvMove) : (playMoves ms s).ret = s.ret := by
  induction ms generalizing s with
  | nil => rfl
  | cons m ms ih => unfold playMoves; split_ifs <;> simp [ih]
@[simp] theorem playMoves_trace (s : State) (ms : List EnvMove) : (playMoves ms s).trace = s.trace := by
  induction ms generalizing s with
  | nil => rfl
  | cons m ms ih => unfold playMoves; split_ifs <;> simp [ih]
@[simp] theorem playMoves_regs (s : State) (ms : List EnvMove) (q : Port) : (playMoves ms s).regs q = s.regs q := by
  induction ms generalizing s with
  | nil => rfl
  | cons m ms ih => unfold playMoves; split_ifs <;> simp [ih]
@[simp] theorem playMoves_out (s : State) (ms : List EnvMove) (q : Port) : (playMoves ms s).out q = s.out q := by
  induction ms generalizing s with
  | nil => rfl
  | cons m ms ih => unfold playMoves; split_ifs <;> simp [ih]
@[simp] theorem playMoves_live (s : State) (ms : List EnvMove) (q : Port) : (playMoves ms s).live q = s.live q := by
  simp [State.live]
@[simp] theorem playMoves_running (s : State) (ms : List EnvMove) : running (playMoves ms s) = running s := by
  simp [running]

/-! ## point -/

@[simp] theorem point_cfg (s : State) : (point s).cfg = s.cfg := by
  unfold point; split_ifs <;> [rfl; (split <;> simp)]
@[simp] theorem point_wdogArmed (s : State) : (point s).wdogArmed = s.wdogArmed := by
  unfold point; split_ifs <;> [rfl; (split <;> simp)]
@[simp] theorem point_halt (s : State) : (point s).halt = s.halt := by
  unfold point; split_ifs <;> [rfl; (split <;> simp)]
@[simp] theorem point_pos (s : State) : (point s).pos = s.pos := by
  unfold point; split_ifs <;> [rfl; (split <;> simp)]
@[simp] theorem point_ret (s : State) : (point s).ret = s.ret := by
  unfold point; split_ifs <;> [rfl; (split <;> simp)]
@[simp] theorem point_trace (s : State) : (point s).trace = s.trace := by
  unfold point; split_ifs <;> [rfl; (split <;> simp)]
@[simp] theorem point_regs (s : State) (q : Port) : (point s).regs q = s.regs q := by
  unfold point; split_ifs <;> [rfl; (split <;> simp)]
@[simp] theorem point_out (s : State) (q : Port) : (point s).out q = s.out q := by
  unfold point; split_ifs <;> [rfl; (split <;> simp)]
@[simp] theorem point_live (s : State) (q : Port) : (point s).live q = s.live q := by
  simp [State.live]
@[simp] theorem point_running (s : State) : running (point s) = running s := by
  simp [running]

/-! ## emit -/

@[simp] theorem emit_cfg (s : State) (e : Event) : (emit e s).cfg = s.cfg := by
  unfold emit effect; split_ifs <;> simp
@[simp] theorem emit_wdogArmed (s : State) (e : Event) : (emit e s).wdogArmed = s.wdogArmed := by
  unfold emit effect; split_ifs <;> simp
@[simp] theorem emit_halt (s : State) (e : Event) : (emit e s).halt = s.halt := by
  unfold emit effect; split_ifs <;> simp
@[simp] theorem emit_pos (s : State) (e : Event) : (emit e s).pos = s.pos := by
  unfold emit effect; split_ifs <;> simp
@[simp] theorem emit_ret (s : State) (e : Event) : (emit e s).ret = s.ret := by
  unfold emit effect; split_ifs <;> simp
@[simp] theorem emit_regs (s : State) (e : Event) (q : Port) : (emit e s).regs q = s.regs q := by
  unfold emit effect; split_ifs <;> simp
@[simp] theorem emit_out (s : State) (e : Event) (q : Port) : (emit e s).out q = s.out q := by
  unfold emit effect; split_ifs <;> simp
@[simp] theorem emit_live (s : State) (e : Event) (q : Port) : (emit e s).live q = s.live q := by
  simp [State.live]
@[simp] theorem emit_running (s : State) (e : Event) : running (emit e s) = running s := by
  simp [running]

/-! ## delay -/

@[simp] theorem delay_cfg (s : State) (p : Port) (d : DelayKind) : (delay p d s).cfg = s.cfg := by
  simp [delay]
@[simp] theorem delay_wdogArmed (s : State) (p : Port) (d : DelayKind) : (delay p d s).wdogArmed = s.wdogArmed := by
  simp [delay]
@[simp] theorem delay_halt (s : State) (p : Port) (d : DelayKind) : (delay p d s).halt = s.halt := by
  simp [delay]
@[simp] theorem delay_pos (s : State) (p : Port) (d : DelayKind) : (delay p d s).pos = s.pos := by
  simp [delay]
@[simp] theorem delay_ret (s : State) (p : Port) (d : DelayKind) : (delay p d s).ret = s.ret := by
  simp [delay]
@[simp] theorem delay_regs (s : State) (p : Port) (d : DelayKind) (q : Port) : (delay p d s).regs q = s.regs q := by
  simp [delay]
@[simp] theorem delay_out (s : State) (p : Port) (d : DelayKind) (q : Port) : (delay p d s).out q = s.out q := by
  simp [delay]
@[simp] theorem delay_live (s : State) (p : Port) (d : DelayKind) (q : Port) : (delay p d s).live q = s.live q := by
  simp [State.live]
@[simp] theorem delay_running (s : State) (p : Port) (d : DelayKind) : running (delay p d s) = running s := by
  simp [running]

/-! ## tcpcReset -/

@[simp] theorem tcpcReset_cfg (s : State) (p : Port) : (tcpcReset p s).cfg = s.cfg := by
  unfold tcpcReset effect; split_ifs <;> simp
@[simp] theorem tcpcReset_wdogArmed (s : State) (p : Port) : (tcpcReset p s).wdogArmed = s.wdogArmed := by
  unfold tcpcReset effect; split_ifs <;> simp
@[simp] theorem tcpcReset_halt (s : State) (p : Port) : (tcpcReset p s).halt = s.halt := by
  unfold tcpcReset effect; split_ifs <;> simp
@[simp] theorem tcpcReset_pos (s : State) (p : Port) : (tcpcReset p s).pos = s.pos := by
  unfold tcpcReset effect; split_ifs <;> simp
@[simp] theorem tcpcReset_ret (s : State) (p : Port) : (tcpcReset p s).ret = s.ret := by
  unfold tcpcReset effect; split_ifs <;> simp
@[simp] theorem tcpcReset_regs (s : State) (p : Port) (q : Port) : (tcpcReset p s).regs q = s.regs q := by
  unfold tcpcReset effect; split_ifs <;> simp
@[simp] theorem tcpcReset_out (s : State) (p : Port) (q : Port) : (tcpcReset p s).out q = s.out q := by
  unfold tcpcReset effect; split_ifs <;> simp
@[simp] theorem tcpcReset_live (s : State) (p : Port) (q : Port) : (tcpcReset p s).live q = s.live q := by
  simp [State.live]
@[simp] theorem tcpcReset_running (s : State) (p : Port) : running (tcpcReset p s) = running s := by
  simp [running]

/-! ## intStatusReadClear -/

@[simp] theorem intStatusReadClear_cfg (s : State) (p : Port) : ((intStatusReadClear p s).2).cfg = s.cfg := by
  unfold intStatusReadClear effect; dsimp only; split_ifs <;> simp
@[simp] theorem intStatusReadClear_wdogArmed (s : State) (p : Port) : ((intStatusReadClear p s).2).wdogArmed = s.wdogArmed := by
  unfold intStatusReadClear effect; dsimp only; split_ifs <;> simp
@[simp] theorem intStatusReadClear_halt (s : State) (p : Port) : ((intStatusReadClear p s).2).halt = s.halt := by
  unfold intStatusReadClear effect; dsimp only; split_ifs <;> simp
@[simp] theorem intStatusReadClear_pos (s : State) (p : Port) : ((intStatusReadClear p s).2).pos = s.pos := by
  unfold intStatusReadClear effect; dsimp only; split_ifs <;> simp
@[simp] theorem intStatusReadClear_ret (s : State) (p : Port) : ((intStatusReadClear p s).2).ret = s.ret := by
  unfold intStatusReadClear effect; dsimp only; split_ifs <;> simp
@[simp] theorem intStatusReadClear_trace (s : State) (p : Port) : ((intStatusReadClear p s).2).trace = s.trace := by
  unfold intStatusReadClear effect; dsimp only; split_ifs <;> simp
@[simp] theorem intStatusReadClear_regs (s : State) (p : Port) (q : Port) : ((intStatusReadClear p s).2).regs q = s.regs q := by
  unfold intStatusReadClear effect; dsimp only; split_ifs <;> simp
@[simp] theorem intStatusReadClear_out (s : State) (p : Port) (q : Port) : ((intStatusReadClear p s).2).out q = s.out q := by
  unfold intStatusReadClear effect; dsimp only; split_ifs <;> simp
@[simp] theorem intStatusReadClear_live (s : State) (p : Port) (q : Port) : ((intStatusReadClear p s).2).live q = s.live q := by
  simp [State.live]
@[simp] theorem intStatusReadClear_running (s : State) (p : Port) : running ((intStatusReadClear p s).2) = running s := by
  simp [running]

/-! ## rxGet -/

@[simp] theorem rxGet_cfg (s : State) (p : Port) : ((rxGet p s).2).cfg = s.cfg := by
  unfold rxGet; split_ifs <;> [rfl; (split <;> simp)]
@[simp] theorem rxGet_wdogArmed (s : State) (p : Port) : ((rxGet p s).2).wdogArmed = s.wdogArmed := by
  unfold rxGet; split_ifs <;> [rfl; (split <;> simp)]
@[simp] theorem rxGet_halt (s : State) (p : Port) : ((rxGet p s).2).halt = s.halt := by
  unfold rxGet; split_ifs <;> [rfl; (split <;> simp)]
@[simp] theorem rxGet_pos (s : State) (p : Port) : ((rxGet p s).2).pos = s.pos := by
  unfold rxGet; split_ifs <;> [rfl; (split <;> simp)]
@[simp] theorem rxGet_ret (s : State) (p : Port) : ((rxGet p s).2).ret = s.ret := by
  unfold rxGet; split_ifs <;> [rfl; (split <;> simp)]
@[simp] theorem rxGet_trace (s : State) (p : Port) : ((rxGet p s).2).trace = s.trace := by
  unfold rxGet; split_ifs <;> [rfl; (split <;> simp)]
@[simp] theorem rxGet_regs (s : State) (p : Port) (q : Port) : ((rxGet p s).2).regs q = s.regs q := by
  unfold rxGet; split_ifs <;> [rfl; (split <;> simp)]
@[simp] theorem rxGet_out (s : State) (p : Port) (q : Port) : ((rxGet p s).2).out q = s.out q := by
  unfold rxGet; split_ifs <;> [rfl; (split <;> simp)]
@[simp] theorem rxGet_live (s : State) (p : Port) (q : Port) : ((rxGet p s).2).live q = s.live q := by
  simp [State.live]
@[simp] theorem rxGet_running (s : State) (p : Port) : running ((rxGet p s).2) = running s := by
  simp [running]

/-! ## hostTryRecv -/

@[simp] theorem hostTryRecv_cfg (s : State) (p : Port) : ((hostTryRecv p s).2).cfg = s.cfg := by
  unfold hostTryRecv; split_ifs <;> [rfl; (split <;> simp)]
@[simp] theorem hostTryRecv_wdogArmed (s : State) (p : Port) : ((hostTryRecv p s).2).wdogArmed = s.wdogArmed := by
  unfold hostTryRecv; split_ifs <;> [rfl; (split <;> simp)]
@[simp] theorem hostTryRecv_halt (s : State) (p : Port) : ((hostTryRecv p s).2).halt = s.halt := by
  unfold hostTryRecv; split_ifs <;> [rfl; (split <;> simp)]
@[simp] theorem hostTryRecv_pos (s : State) (p : Port) : ((hostTryRecv p s).2).pos = s.pos := by
  unfold hostTryRecv; split_ifs <;> [rfl; (split <;> simp)]
@[simp] theorem hostTryRecv_ret (s : State) (p : Port) : ((hostTryRecv p s).2).ret = s.ret := by
  unfold hostTryRecv; split_ifs <;> [rfl; (split <;> simp)]
@[simp] theorem hostTryRecv_trace (s : State) (p : Port) : ((hostTryRecv p s).2).trace = s.trace := by
  unfold hostTryRecv; split_ifs <;> [rfl; (split <;> simp)]
@[simp] theorem hostTryRecv_regs (s : State) (p : Port) (q : Port) : ((hostTryRecv p s).2).regs q = s.regs q := by
  unfold hostTryRecv; split_ifs <;> [rfl; (split <;> simp)]
@[simp] theorem hostTryRecv_out (s : State) (p : Port) (q : Port) : ((hostTryRecv p s).2).out q = s.out q := by
  unfold hostTryRecv; split_ifs <;> [rfl; (split <;> simp)]
@[simp] theorem hostTryRecv_live (s : State) (p : Port) (q : Port) : ((hostTryRecv p s).2).live q = s.live q := by
  simp [State.live]
@[simp] theorem hostTryRecv_running (s : State) (p : Port) : running ((hostTryRecv p s).2) = running s := by
  simp [running]

/-! ## stall -/

@[simp] theorem stall_cfg (s : State) (p : Port) : (stall p s).cfg = s.cfg := by
  simp [stall]
@[simp] theorem stall_wdogArmed (s : State) (p : Port) : (stall p s).wdogArmed = s.wdogArmed := by
  simp [stall]
@[simp] theorem stall_halt (s : State) (p : Port) : (stall p s).halt = s.halt := by
  simp [stall]
@[simp] theorem stall_pos (s : State) (p : Port) : (stall p s).pos = s.pos := by
  simp [stall]
@[simp] theorem stall_ret (s : State) (p : Port) : (stall p s).ret = s.ret := by
  simp [stall]
@[simp] theorem stall_trace (s : State) (p : Port) : (stall p s).trace = s.trace := by
  simp [stall]
@[simp] theorem stall_regs (s : State) (p : Port) (q : Port) : (stall p s).regs q = s.regs q := by
  simp [stall]
@[simp] theorem stall_out (s : State) (p : Port) (q : Port) : (stall p s).out q = s.out q := by
  simp [stall]
@[simp] theorem stall_live (s : State) (p : Port) (q : Port) : (stall p s).live q = s.live q := by
  simp [State.live]
@[simp] theorem stall_running (s : State) (p : Port) : running (stall p s) = running s := by
  simp [running]

/-! ## sendBytes -/

@[simp] theorem sendBytes_cfg (s : State) (p : Port) (e : Event) (n : Nat) (ms : List (List EnvMove)) (k : Nat) : (sendBytes p e n ms k s).cfg = s.cfg := by
  induction ms generalizing k s with
  | nil => unfold sendBytes; split_ifs <;> simp
  | cons m ms ih => unfold sendBytes; split_ifs <;> simp [ih]
@[simp] theorem sendBytes_wdogArmed (s : State) (p : Port) (e : Event) (n : Nat) (ms : List (List EnvMove)) (k : Nat) : (sendBytes p e n ms k s).wdogArmed = s.wdogArmed := by
  induction ms generalizing k s with
  | nil => unfold sendBytes; split_ifs <;> simp
  | cons m ms ih => unfold sendBytes; split_ifs <;> simp [ih]
@[simp] theorem sendBytes_halt (s : State) (p : Port) (e : Event) (n : Nat) (ms : List (List EnvMove)) (k : Nat) : (sendBytes p e n ms k s).halt = s.halt := by
  induction ms generalizing k s with
  | nil => unfold sendBytes; split_ifs <;> simp
  | cons m ms ih => unfold sendBytes; split_ifs <;> simp [ih]
@[simp] theorem sendBytes_pos (s : State) (p : Port) (e : Event) (n : Nat) (ms : List (List EnvMove)) (k : Nat) : (sendBytes p e n ms k s).pos = s.pos := by
  induction ms generalizing k s with
  | nil => unfold sendBytes; split_ifs <;> simp
  | cons m ms ih => unfold sendBytes; split_ifs <;> simp [ih]
@[simp] theorem sendBytes_ret (s : State) (p : Port) (e : Event) (n : Nat) (ms : List (List EnvMove)) (k : Nat) : (sendBytes p e n ms k s).ret = s.ret := by
  induction ms generalizing k s with
  | nil => unfold sendBytes; split_ifs <;> simp
  | cons m ms ih => unfold sendBytes; split_ifs <;> simp [ih]
@[simp] theorem sendBytes_regs (s : State) (p : Port) (e : Event) (n : Nat) (ms : List (List EnvMove)) (k : Nat) (q : Port) : (sendBytes p e n ms k s).regs q = s.regs q := by
  induction ms generalizing k s with
  | nil => unfold sendBytes; split_ifs <;> simp
  | cons m ms ih => unfold sendBytes; split_ifs <;> simp [ih]
@[simp] theorem sendBytes_out (s : State) (p : Port) (e : Event) (n : Nat) (ms : List (List EnvMove)) (k : Nat) (q : Port) : (sendBytes p e n ms k s).out q = s.out q := by
  induction ms generalizing k s with
  | nil => unfold sendBytes; split_ifs <;> simp
  | cons m ms ih => unfold sendBytes; split_ifs <;> simp [ih]
@[simp] theorem sendBytes_live (s : State) (p : Port) (e : Event) (n : Nat) (ms : List (List EnvMove)) (k : Nat) (q : Port) : (sendBytes p e n ms k s).live q = s.live q := by
  simp [State.live]
@[simp] theorem sendBytes_running (s : State) (p : Port) (e : Event) (n : Nat) (ms : List (List EnvMove)) (k : Nat) : running (sendBytes p e n ms k s) = running s := by
  simp [running]

/-! ## hostSend -/

@[simp] theorem hostSend_cfg (s : State) (p : Port) (e : Event) : (hostSend p e s).cfg = s.cfg := by
  unfold hostSend; dsimp only; split_ifs <;> simp
@[simp] theorem hostSend_wdogArmed (s : State) (p : Port) (e : Event) : (hostSend p e s).wdogArmed = s.wdogArmed := by
  unfold hostSend; dsimp only; split_ifs <;> simp
@[simp] theorem hostSend_halt (s : State) (p : Port) (e : Event) : (hostSend p e s).halt = s.halt := by
  unfold hostSend; dsimp only; split_ifs <;> simp
@[simp] theorem hostSend_pos (s : State) (p : Port) (e : Event) : (hostSend p e s).pos = s.pos := by
  unfold hostSend; dsimp only; split_ifs <;> simp
@[simp] theorem hostSend_ret (s : State) (p : Port) (e : Event) : (hostSend p e s).ret = s.ret := by
  unfold hostSend; dsimp only; split_ifs <;> simp
@[simp] theorem hostSend_regs (s : State) (p : Port) (e : Event) (q : Port) : (hostSend p e s).regs q = s.regs q := by
  unfold hostSend; dsimp only; split_ifs <;> simp
@[simp] theorem hostSend_out (s : State) (p : Port) (e : Event) (q : Port) : (hostSend p e s).out q = s.out q := by
  unfold hostSend; dsimp only; split_ifs <;> simp
@[simp] theorem hostSend_live (s : State) (p : Port) (e : Event) (q : Port) : (hostSend p e s).live q = s.live q := by
  simp [State.live]
@[simp] theorem hostSend_running (s : State) (p : Port) (e : Event) : running (hostSend p e s) = running s := by
  simp [running]

/-! ## uartPut -/

@[simp] theorem uartPut_cfg (s : State) (p : Port) (b : Byte) : (uartPut p b s).cfg = s.cfg := by
  simp [uartPut]
@[simp] theorem uartPut_wdogArmed (s : State) (p : Port) (b : Byte) : (uartPut p b s).wdogArmed = s.wdogArmed := by
  simp [uartPut]
@[simp] theorem uartPut_halt (s : State) (p : Port) (b : Byte) : (uartPut p b s).halt = s.halt := by
  simp [uartPut]
@[simp] theorem uartPut_pos (s : State) (p : Port) (b : Byte) : (uartPut p b s).pos = s.pos := by
  simp [uartPut]
@[simp] theorem uartPut_ret (s : State) (p : Port) (b : Byte) : (uartPut p b s).ret = s.ret := by
  simp [uartPut]
@[simp] theorem uartPut_regs (s : State) (p : Port) (b : Byte) (q : Port) : (uartPut p b s).regs q = s.regs q := by
  simp [uartPut]
@[simp] theorem uartPut_out (s : State) (p : Port) (b : Byte) (q : Port) : (uartPut p b s).out q = s.out q := by
  simp [uartPut]
@[simp] theorem uartPut_live (s : State) (p : Port) (b : Byte) (q : Port) : (uartPut p b s).live q = s.live q := by
  simp [State.live]
@[simp] theorem uartPut_running (s : State) (p : Port) (b : Byte) : running (uartPut p b s) = running s := by
  simp [running]

/-! ## ringGet -/

@[simp] theorem ringGet_cfg (s : State) (p : Port) : ((ringGet p s).2).cfg = s.cfg := by
  simp [ringGet]
@[simp] theorem ringGet_wdogArmed (s : State) (p : Port) : ((ringGet p s).2).wdogArmed = s.wdogArmed := by
  simp [ringGet]
@[simp] theorem ringGet_halt (s : State) (p : Port) : ((ringGet p s).2).halt = s.halt := by
  simp [ringGet]
@[simp] theorem ringGet_pos (s : State) (p : Port) : ((ringGet p s).2).pos = s.pos := by
  simp [ringGet]
@[simp] theorem ringGet_ret (s : State) (p : Port) : ((ringGet p s).2).ret = s.ret := by
  simp [ringGet]
@[simp] theorem ringGet_trace (s : State) (p : Port) : ((ringGet p s).2).trace = s.trace := by
  simp [ringGet]
@[simp] theorem ringGet_regs (s : State) (p : Port) (q : Port) : ((ringGet p s).2).regs q = s.regs q := by
  simp [ringGet]
@[simp] theorem ringGet_out (s : State) (p : Port) (q : Port) : ((ringGet p s).2).out q = s.out q := by
  simp [ringGet]
@[simp] theorem ringGet_live (s : State) (p : Port) (q : Port) : ((ringGet p s).2).live q = s.live q := by
  simp [State.live]
@[simp] theorem ringGet_running (s : State) (p : Port) : running ((ringGet p s).2) = running s := by
  simp [running]

/-! ## logLine -/

@[simp] theorem logLine_cfg (s : State) (p : Port) (l : LogBody) : (logLine p l s).cfg = s.cfg := by
  unfold logLine; split_ifs <;> simp
@[simp] theorem logLine_wdogArmed (s : State) (p : Port) (l : LogBody) : (logLine p l s).wdogArmed = s.wdogArmed := by
  unfold logLine; split_ifs <;> simp
@[simp] theorem logLine_halt (s : State) (p : Port) (l : LogBody) : (logLine p l s).halt = s.halt := by
  unfold logLine; split_ifs <;> simp
@[simp] theorem logLine_pos (s : State) (p : Port) (l : LogBody) : (logLine p l s).pos = s.pos := by
  unfold logLine; split_ifs <;> simp
@[simp] theorem logLine_ret (s : State) (p : Port) (l : LogBody) : (logLine p l s).ret = s.ret := by
  unfold logLine; split_ifs <;> simp
@[simp] theorem logLine_regs (s : State) (p : Port) (l : LogBody) (q : Port) : (logLine p l s).regs q = s.regs q := by
  unfold logLine; split_ifs <;> simp
@[simp] theorem logLine_out (s : State) (p : Port) (l : LogBody) (q : Port) : (logLine p l s).out q = s.out q := by
  unfold logLine; split_ifs <;> simp
@[simp] theorem logLine_live (s : State) (p : Port) (l : LogBody) (q : Port) : (logLine p l s).live q = s.live q := by
  simp [State.live]
@[simp] theorem logLine_running (s : State) (p : Port) (l : LogBody) : running (logLine p l s) = running s := by
  simp [running]

/-! ## foldl_diag -/

@[simp] theorem foldl_diag_cfg (s : State) (p : Port) (ts : List (List Byte)) : (ts.foldl (fun s t => logLine p (.diag t) s) s).cfg = s.cfg := by
  induction ts generalizing s with
  | nil => rfl
  | cons t ts ih => simp [ih]
@[simp] theorem foldl_diag_wdogArmed (s : State) (p : Port) (ts : List (List Byte)) : (ts.foldl (fun s t => logLine p (.diag t) s) s).wdogArmed = s.wdogArmed := by
  induction ts generalizing s with
  | nil => rfl
  | cons t ts ih => simp [ih]
@[simp] theorem foldl_diag_halt (s : State) (p : Port) (ts : List (List Byte)) : (ts.foldl (fun s t => logLine p (.diag t) s) s).halt = s.halt := by
  induction ts generalizing s with
  | nil => rfl
  | cons t ts ih => simp [ih]
@[simp] theorem foldl_diag_pos (s : State) (p : Port) (ts : List (List Byte)) : (ts.foldl (fun s t => logLine p (.diag t) s) s).pos = s.pos := by
  induction ts generalizing s with
  | nil => rfl
  | cons t ts ih => simp [ih]
@[simp] theorem foldl_diag_ret (s : State) (p : Port) (ts : List (List Byte)) : (ts.foldl (fun s t => logLine p (.diag t) s) s).ret = s.ret := by
  induction ts generalizing s with
  | nil => rfl
  | cons t ts ih => simp [ih]
@[simp] theorem foldl_diag_regs (s : State) (p : Port) (ts : List (List Byte)) (q : Port) : (ts.foldl (fun s t => logLine p (.diag t) s) s).regs q = s.regs q := by
  induction ts generalizing s with
  | nil => rfl
  | cons t ts ih => simp [ih]
@[simp] theorem foldl_diag_out (s : State) (p : Port) (ts : List (List Byte)) (q : Port) : (ts.foldl (fun s t => logLine p (.diag t) s) s).out q = s.out q := by
  induction ts generalizing s with
  | nil => rfl
  | cons t ts ih => simp [ih]
@[simp] theorem foldl_diag_live (s : State) (p : Port) (ts : List (List Byte)) (q : Port) : (ts.foldl (fun s t => logLine p (.diag t) s) s).live q = s.live q := by
  simp [State.live]
@[simp] theorem foldl_diag_running (s : State) (p : Port) (ts : List (List Byte)) : running (ts.foldl (fun s t => logLine p (.diag t) s) s) = running s := by
  simp [running]

/-! ## diag -/

@[simp] theorem diag_cfg (s : State) (p : Port) : (diag p s).cfg = s.cfg := by
  unfold diag; split_ifs <;> simp
@[simp] theorem diag_wdogArmed (s : State) (p : Port) : (diag p s).wdogArmed = s.wdogArmed := by
  unfold diag; split_ifs <;> simp
@[simp] theorem diag_halt (s : State) (p : Port) : (diag p s).halt = s.halt := by
  unfold diag; split_ifs <;> simp
@[simp] theorem diag_pos (s : State) (p : Port) : (diag p s).pos = s.pos := by
  unfold diag; split_ifs <;> simp
@[simp] theorem diag_ret (s : State) (p : Port) : (diag p s).ret = s.ret := by
  unfold diag; split_ifs <;> simp
@[simp] theorem diag_regs (s : State) (p : Port) (q : Port) : (diag p s).regs q = s.regs q := by
  unfold diag; split_ifs <;> simp
@[simp] theorem diag_out (s : State) (p : Port) (q : Port) : (diag p s).out q = s.out q := by
  unfold diag; split_ifs <;> simp
@[simp] theorem diag_live (s : State) (p : Port) (q : Port) : (diag p s).live q = s.live q := by
  simp [State.live]
@[simp] theorem diag_running (s : State) (p : Port) : running (diag p s) = running s := by
  simp [running]

/-! ## raise -/

@[simp] theorem raise_cfg (s : State) (c : Condition) : (raise c s).cfg = s.cfg := by
  cases c <;> simp [raise]
@[simp] theorem raise_wdogArmed (s : State) (c : Condition) : (raise c s).wdogArmed = s.wdogArmed := by
  cases c <;> simp [raise]
@[simp] theorem raise_halt (s : State) (c : Condition) : (raise c s).halt = s.halt := by
  cases c <;> simp [raise]
@[simp] theorem raise_pos (s : State) (c : Condition) : (raise c s).pos = s.pos := by
  cases c <;> simp [raise]
@[simp] theorem raise_ret (s : State) (c : Condition) : (raise c s).ret = s.ret := by
  cases c <;> simp [raise]
@[simp] theorem raise_regs (s : State) (c : Condition) (q : Port) : (raise c s).regs q = s.regs q := by
  cases c <;> simp [raise]
@[simp] theorem raise_out (s : State) (c : Condition) (q : Port) : (raise c s).out q = s.out q := by
  cases c <;> simp [raise]
@[simp] theorem raise_live (s : State) (c : Condition) (q : Port) : (raise c s).live q = s.live q := by
  simp [State.live]
@[simp] theorem raise_running (s : State) (c : Condition) : running (raise c s) = running s := by
  simp [running]

/-! ## drawRoles -/

@[simp] theorem drawRoles_cfg (s : State) (p : Port) : (drawRoles p s).cfg = s.cfg := by
  unfold drawRoles; split <;> simp
@[simp] theorem drawRoles_wdogArmed (s : State) (p : Port) : (drawRoles p s).wdogArmed = s.wdogArmed := by
  unfold drawRoles; split <;> simp
@[simp] theorem drawRoles_halt (s : State) (p : Port) : (drawRoles p s).halt = s.halt := by
  unfold drawRoles; split <;> simp
@[simp] theorem drawRoles_pos (s : State) (p : Port) : (drawRoles p s).pos = s.pos := by
  unfold drawRoles; split <;> simp
@[simp] theorem drawRoles_ret (s : State) (p : Port) : (drawRoles p s).ret = s.ret := by
  unfold drawRoles; split <;> simp
@[simp] theorem drawRoles_trace (s : State) (p : Port) : (drawRoles p s).trace = s.trace := by
  unfold drawRoles; split <;> simp
@[simp] theorem drawRoles_regs (s : State) (p : Port) (q : Port) : (drawRoles p s).regs q = s.regs q := by
  unfold drawRoles; split <;> simp
@[simp] theorem drawRoles_out (s : State) (p : Port) (q : Port) : (drawRoles p s).out q = s.out q := by
  unfold drawRoles; split <;> simp
@[simp] theorem drawRoles_live (s : State) (p : Port) (q : Port) : (drawRoles p s).live q = s.live q := by
  simp [State.live]
@[simp] theorem drawRoles_running (s : State) (p : Port) : running (drawRoles p s) = running s := by
  simp [running]

/-! ## tx -/

@[simp] theorem tx_cfg (s : State) (p : Port) (k : TxKind) (c : MsgCode) (o : Objs) : (tx p k c o s).cfg = s.cfg := by
  simp [tx]
@[simp] theorem tx_wdogArmed (s : State) (p : Port) (k : TxKind) (c : MsgCode) (o : Objs) : (tx p k c o s).wdogArmed = s.wdogArmed := by
  simp [tx]
@[simp] theorem tx_halt (s : State) (p : Port) (k : TxKind) (c : MsgCode) (o : Objs) : (tx p k c o s).halt = s.halt := by
  simp [tx]
@[simp] theorem tx_pos (s : State) (p : Port) (k : TxKind) (c : MsgCode) (o : Objs) : (tx p k c o s).pos = s.pos := by
  simp [tx]
@[simp] theorem tx_ret (s : State) (p : Port) (k : TxKind) (c : MsgCode) (o : Objs) : (tx p k c o s).ret = s.ret := by
  simp [tx]
@[simp] theorem tx_regs (s : State) (p : Port) (k : TxKind) (c : MsgCode) (o : Objs) (q : Port) : (tx p k c o s).regs q = s.regs q := by
  simp [tx]
@[simp] theorem tx_out (s : State) (p : Port) (k : TxKind) (c : MsgCode) (o : Objs) (q : Port) : (tx p k c o s).out q = s.out q := by
  simp [tx]
@[simp] theorem tx_live (s : State) (p : Port) (k : TxKind) (c : MsgCode) (o : Objs) (q : Port) : (tx p k c o s).live q = s.live q := by
  simp [State.live]
@[simp] theorem tx_running (s : State) (p : Port) (k : TxKind) (c : MsgCode) (o : Objs) : running (tx p k c o s) = running s := by
  simp [running]

/-! ## txAction -/

@[simp] theorem txAction_cfg (s : State) (p : Port) (k : TxKind) (a : VdmAction) : (txAction p k a s).cfg = s.cfg := by
  simp [txAction]
@[simp] theorem txAction_wdogArmed (s : State) (p : Port) (k : TxKind) (a : VdmAction) : (txAction p k a s).wdogArmed = s.wdogArmed := by
  simp [txAction]
@[simp] theorem txAction_halt (s : State) (p : Port) (k : TxKind) (a : VdmAction) : (txAction p k a s).halt = s.halt := by
  simp [txAction]
@[simp] theorem txAction_pos (s : State) (p : Port) (k : TxKind) (a : VdmAction) : (txAction p k a s).pos = s.pos := by
  simp [txAction]
@[simp] theorem txAction_ret (s : State) (p : Port) (k : TxKind) (a : VdmAction) : (txAction p k a s).ret = s.ret := by
  simp [txAction]
@[simp] theorem txAction_regs (s : State) (p : Port) (k : TxKind) (a : VdmAction) (q : Port) : (txAction p k a s).regs q = s.regs q := by
  simp [txAction]
@[simp] theorem txAction_out (s : State) (p : Port) (k : TxKind) (a : VdmAction) (q : Port) : (txAction p k a s).out q = s.out q := by
  simp [txAction]
@[simp] theorem txAction_live (s : State) (p : Port) (k : TxKind) (a : VdmAction) (q : Port) : (txAction p k a s).live q = s.live q := by
  simp [State.live]
@[simp] theorem txAction_running (s : State) (p : Port) (k : TxKind) (a : VdmAction) : running (txAction p k a s) = running s := by
  simp [running]

/-! ## outWrite -/

@[simp] theorem outWrite_cfg (s : State) (p : Port) (w : OutWrite) : (outWrite p w s).cfg = s.cfg := by
  simp [outWrite]
@[simp] theorem outWrite_wdogArmed (s : State) (p : Port) (w : OutWrite) : (outWrite p w s).wdogArmed = s.wdogArmed := by
  simp [outWrite]
@[simp] theorem outWrite_halt (s : State) (p : Port) (w : OutWrite) : (outWrite p w s).halt = s.halt := by
  simp [outWrite]
@[simp] theorem outWrite_pos (s : State) (p : Port) (w : OutWrite) : (outWrite p w s).pos = s.pos := by
  simp [outWrite]
@[simp] theorem outWrite_ret (s : State) (p : Port) (w : OutWrite) : (outWrite p w s).ret = s.ret := by
  simp [outWrite]
@[simp] theorem outWrite_regs (s : State) (p : Port) (w : OutWrite) (q : Port) : (outWrite p w s).regs q = s.regs q := by
  simp [outWrite]
@[simp] theorem outWrite_out (s : State) (p : Port) (w : OutWrite) (q : Port) :
    (outWrite p w s).out q = if q = p then writeOutput w (s.out q) else s.out q := by
  simp [outWrite]
@[simp] theorem outWrite_live (s : State) (p : Port) (w : OutWrite) (q : Port) : (outWrite p w s).live q = s.live q := by
  simp [State.live]
@[simp] theorem outWrite_running (s : State) (p : Port) (w : OutWrite) : running (outWrite p w s) = running s := by
  simp [running]

/-! ## outWritePair -/

@[simp] theorem outWritePair_cfg (s : State) (p : Port) (v w : OutWrite) : (outWritePair p v w s).cfg = s.cfg := by
  simp [outWritePair]
@[simp] theorem outWritePair_wdogArmed (s : State) (p : Port) (v w : OutWrite) : (outWritePair p v w s).wdogArmed = s.wdogArmed := by
  simp [outWritePair]
@[simp] theorem outWritePair_halt (s : State) (p : Port) (v w : OutWrite) : (outWritePair p v w s).halt = s.halt := by
  simp [outWritePair]
@[simp] theorem outWritePair_pos (s : State) (p : Port) (v w : OutWrite) : (outWritePair p v w s).pos = s.pos := by
  simp [outWritePair]
@[simp] theorem outWritePair_ret (s : State) (p : Port) (v w : OutWrite) : (outWritePair p v w s).ret = s.ret := by
  simp [outWritePair]
@[simp] theorem outWritePair_regs (s : State) (p : Port) (v w : OutWrite) (q : Port) : (outWritePair p v w s).regs q = s.regs q := by
  simp [outWritePair]
@[simp] theorem outWritePair_out (s : State) (p : Port) (v w : OutWrite) (q : Port) :
    (outWritePair p v w s).out q = if q = p then writeOutput w (writeOutput v (s.out q)) else s.out q := by
  simp [outWritePair]
@[simp] theorem outWritePair_live (s : State) (p : Port) (v w : OutWrite) (q : Port) : (outWritePair p v w s).live q = s.live q := by
  simp [State.live]
@[simp] theorem outWritePair_running (s : State) (p : Port) (v w : OutWrite) : running (outWritePair p v w s) = running s := by
  simp [running]

/-! ## A quiet environment -/

theorem chipIrq_of_not_ready {s : State} (h : ∀ p, irqReady s p = false) : chipIrq s = s := by
  simp [chipIrq, h]

/-- No handler runs for a port before its `SETUP` has returned (R281). -/
theorem irqReady_of_not_setUp {s : State} {p : Port} (h : (s.regs p).setUp = false) : irqReady s p = false := by
  simp [irqReady, State.live, h]

/-- In a still environment an interrupt point changes nothing. -/
theorem point_of_still {s : State} (h : Still s) : point s = s := by
  obtain ⟨hs, hr, hi⟩ := h
  simp [point, hs, hr, takeIrqs, chipIrq_of_not_ready hi]

/-- In a quiet environment an interrupt point changes nothing. -/
theorem point_of_quiet {s : State} (h : Quiet s) : point s = s := point_of_still h.1

theorem quiet_sched {s : State} (h : Quiet s) : s.sched = [] := h.1.1
theorem quiet_resetReq {s : State} (h : Quiet s) : s.resetReq = none := h.1.2.1
theorem quiet_stalled {s : State} (h : Quiet s) : s.stalled = none := (h.2 .p0).1

theorem quiet_takes {s : State} (h : Quiet s) (p : Port) (hc : (s.env p).connected = true) : (s.env p).takes = true := by
  have := (h.2 p).2
  simpa [quiet_sched h, takesAfter, hc] using this

/-- A state that agrees with a quiet one on what quietness speaks of is quiet. -/
theorem quiet_congr {s t : State} (h : Quiet s) (hs : t.sched = s.sched) (hr : t.resetReq = s.resetReq)
    (hi : ∀ p, irqReady t p = irqReady s p) (hst : t.stalled = s.stalled)
    (hc : ∀ p, (t.env p).connected = (s.env p).connected) (ht : ∀ p, (t.env p).takes = (s.env p).takes) : Quiet t :=
  ⟨⟨hs.trans h.1.1, hr.trans h.1.2.1, fun p => (hi p).trans (h.1.2.2 p)⟩,
    fun p => ⟨hst.trans (h.2 p).1, by rw [hc, ht, hs]; exact (h.2 p).2⟩⟩

theorem emit_of_quiet {s : State} (h : Quiet s) (e : Event) : emit e s = s.setTrace (s.trace ++ [e]) := by
  simp [emit, effect, quiet_resetReq h]

/-- In a quiet environment a send on a connected channel is one event, on a disconnected one nothing. -/
theorem hostSend_of_quiet {s : State} (h : Quiet s) (p : Port) (e : Event) :
    hostSend p e s = if (s.env p).connected then s.setTrace (s.trace ++ [e]) else s.setTrace (s.trace ++ cutEvents 0 e) := by
  simp only [hostSend, point_of_quiet h, quiet_sched h, quiet_resetReq h, sendBytes]
  cases hc : (s.env p).connected
  · simp
  · simp [quiet_takes h p hc]

theorem quiet_setTrace {s : State} (h : Quiet s) (x : List Event) : Quiet (s.setTrace x) :=
  quiet_congr h (by simp) (by simp) (by simp [irqReady, State.live, running]) (by simp) (by simp) (by simp)

theorem quiet_setFreeCtr {s : State} (h : Quiet s) (x : Nat) : Quiet (s.setFreeCtr x) :=
  quiet_congr h (by simp) (by simp) (by simp [irqReady, State.live, running]) (by simp) (by simp) (by simp)

theorem quiet_updOut {s : State} (h : Quiet s) (p : Port) (f : Outputs → Outputs) : Quiet (s.updOut p f) :=
  quiet_congr h (by simp) (by simp) (by simp [irqReady, State.live, running]) (by simp) (by simp) (by simp)

theorem quiet_updRegs {s : State} (h : Quiet s) (p : Port) (f : PortRegs → PortRegs)
    (hf : ∀ r, (f r).present = r.present) (hu : ∀ r, (f r).setUp = r.setUp) : Quiet (s.updRegs p f) :=
  quiet_congr h (by simp) (by simp)
    (by intro q; simp only [irqReady, State.live, running, regs_updRegs]; split_ifs <;> simp [hf, hu])
    (by simp) (by simp) (by simp)

/-- Before `SETUP` of a port has returned, no write of its fields makes a handler ready (R281). -/
theorem quiet_updRegs_beforeSetUp {s : State} (h : Quiet s) {p : Port} (hn : (s.regs p).setUp = false)
    (f : PortRegs → PortRegs) (hu : ∀ r, (f r).setUp = r.setUp) : Quiet (s.updRegs p f) :=
  quiet_congr h (by simp) (by simp)
    (by intro q; simp only [irqReady, State.live, running, regs_updRegs]; split_ifs with e <;> simp [hu, e, hn])
    (by simp) (by simp) (by simp)

theorem quiet_updShared_beforeSetUp {s : State} (h : Quiet s) {p : Port} (hn : (s.regs p).setUp = false)
    (f : Shared → Shared) : Quiet (s.updShared p f) :=
  quiet_congr h (by simp) (by simp)
    (by intro q; simp only [irqReady, State.live, running, shared_updShared]; split_ifs with e <;> simp [e, hn])
    (by simp) (by simp) (by simp)

theorem quiet_emit {s : State} (h : Quiet s) (e : Event) : Quiet (emit e s) := by
  rw [emit_of_quiet h]; exact quiet_setTrace h _

/-! ## The guard on the port -/

theorem stallOutcome_of_none {s : State} (h : s.stalled = none) : stallOutcome s = .next s := by simp [stallOutcome, h]

/-- An operation of a live port whose sends are all taken answers what it computes. -/
theorem onPort_live {s : State} {p : Port} (h : s.live p = true) (f : State → State) (hf : (f s).stalled = none) :
    onPort p f s = .next (f s) := by
  simp only [State.live, Bool.and_eq_true] at h
  simp [onPort, guardPort, h.1, h.2, stallOutcome_of_none hf]

theorem onPortIrq_live {s : State} {p : Port} (h : s.live p = true) (f : State → State) :
    onPortIrq p f s = .next (f s) := by
  simp only [State.live, Bool.and_eq_true] at h
  simp [onPortIrq, guardPort, h.1, h.2]

theorem guardPort_absent {s : State} {p : Port} (h1 : (s.regs p).setUp = true) (h2 : (s.regs p).present = false)
    (k : State → Host.Outcome State Fault Refusal) : guardPort p k s = .next s := by
  simp [guardPort, h1, h2]

theorem guardPort_beforeSetUp {s : State} {p : Port} (h : (s.regs p).setUp = false)
    (k : State → Host.Outcome State Fault Refusal) : guardPort p k s = .refused .notSetUp := by
  simp [guardPort, h]

end Sys2Proof.Machine
end

