-- ==== Sys2Proof/Laws/HostChannel.lean ====
section
/-! SUPPORT. The environment's duty toward `HostSend` (44_run_loop.md R229) is kept by every interrupt point and every
primitive, and while it holds no send is stuck. -/

namespace Sys2Proof.Machine

/-- `HostTakes` speaks of three things only: the stall, the channel as it is now, and the schedule. -/
theorem hostTakes_congr {s t : State} {p : Port} (h : HostTakes p s) (hst : t.stalled = s.stalled)
    (hc : (t.env p).connected = (s.env p).connected) (ht : (t.env p).takes = (s.env p).takes) (hs : t.sched = s.sched) : HostTakes p t :=
  ⟨hst.trans h.1, by rw [hc, ht, hs]; exact h.2⟩

theorem hostTakes_stalled {s : State} {p : Port} (h : HostTakes p s) : s.stalled = none := h.1

/-! ## Setters -/

theorem hostTakes_updRegs {s : State} {q : Port} (h : HostTakes q s) (p : Port) (f : PortRegs → PortRegs) :
    HostTakes q (s.updRegs p f) := hostTakes_congr h (by simp) (by simp) (by simp) (by simp)
theorem hostTakes_updOut {s : State} {q : Port} (h : HostTakes q s) (p : Port) (f : Outputs → Outputs) :
    HostTakes q (s.updOut p f) := hostTakes_congr h (by simp) (by simp) (by simp) (by simp)
theorem hostTakes_updShared {s : State} {q : Port} (h : HostTakes q s) (p : Port) (f : Shared → Shared) :
    HostTakes q (s.updShared p f) := hostTakes_congr h (by simp) (by simp) (by simp) (by simp)
theorem hostTakes_updEnv {s : State} {q : Port} (h : HostTakes q s) (p : Port) (f : EnvPort → EnvPort)
    (hc : ∀ e, (f e).connected = e.connected) (hf : ∀ e, (f e).takes = e.takes) : HostTakes q (s.updEnv p f) :=
  hostTakes_congr h (by simp) (by simp only [env_updEnv]; split_ifs <;> simp [hc])
    (by simp only [env_updEnv]; split_ifs <;> simp [hf]) (by simp)
theorem hostTakes_setTrace {s : State} {q : Port} (h : HostTakes q s) (x : List Event) : HostTakes q (s.setTrace x) :=
  hostTakes_congr h (by simp) (by simp) (by simp) (by simp)
theorem hostTakes_setFreeCtr {s : State} {q : Port} (h : HostTakes q s) (x : Nat) : HostTakes q (s.setFreeCtr x) :=
  hostTakes_congr h (by simp) (by simp) (by simp) (by simp)
theorem hostTakes_setPos {s : State} {q : Port} (h : HostTakes q s) (x : MainPos) : HostTakes q (s.setPos x) :=
  hostTakes_congr h (by simp) (by simp) (by simp) (by simp)
theorem hostTakes_setWake {s : State} {q : Port} (h : HostTakes q s) (x : Bool) : HostTakes q (s.setWake x) :=
  hostTakes_congr h (by simp) (by simp) (by simp) (by simp)
theorem hostTakes_setCalls {s : State} {q : Port} (h : HostTakes q s) (x : List BreakCall) : HostTakes q (s.setCalls x) :=
  hostTakes_congr h (by simp) (by simp) (by simp) (by simp)
theorem hostTakes_setWdogArmed {s : State} {q : Port} (h : HostTakes q s) (x : Bool) : HostTakes q (s.setWdogArmed x) :=
  hostTakes_congr h (by simp) (by simp) (by simp) (by simp)
theorem hostTakes_setHalt {s : State} {q : Port} (h : HostTakes q s) (x : Halt) : HostTakes q (s.setHalt x) :=
  hostTakes_congr h (by simp) (by simp) (by simp) (by simp)
theorem hostTakes_setRet {s : State} {q : Port} (h : HostTakes q s) (x : Option Byte) : HostTakes q (s.setRet x) :=
  hostTakes_congr h (by simp) (by simp) (by simp) (by simp)

/-! ## Interrupts and moves -/

theorem chipIrq_frame (s : State) (q : Port) :
    (chipIrq s).stalled = s.stalled ∧ (chipIrq s).env q = s.env q ∧ (chipIrq s).sched = s.sched ∧
      (chipIrq s).resetReq = s.resetReq := by
  unfold chipIrq; split_ifs <;> simp [takeChipIrq, maskLine, setPending]

theorem takeIrqs_frame (s : State) (q : Port) :
    (takeIrqs s).stalled = s.stalled ∧ (takeIrqs s).env q = s.env q ∧ (takeIrqs s).sched = s.sched ∧
      (takeIrqs s).resetReq = s.resetReq := by
  obtain ⟨a, b, c, d⟩ := chipIrq_frame s q
  obtain ⟨a', b', c', d'⟩ := chipIrq_frame (chipIrq s) q
  exact ⟨a'.trans a, b'.trans b, c'.trans c, d'.trans d⟩

/-- A move leaves the stall and the schedule alone, and acts on the channel as `takesAfter` says. -/
theorem applyMove_frame (s : State) (m : EnvMove) (ms : List EnvMove) (q : Port) :
    (applyMove m s).stalled = s.stalled ∧ (applyMove m s).sched = s.sched ∧
      takesAfter q ((applyMove m s).env q).connected ((applyMove m s).env q).takes ms =
        takesAfter q (s.env q).connected (s.env q).takes (m :: ms) := by
  cases m <;> simp only [applyMove, hostActivity, uartReceive, ringPut, takesAfter] <;>
    (try split_ifs) <;> (refine ⟨by simp, by simp, ?_⟩) <;> simp <;> (try split_ifs) <;> simp_all

theorem hostTakes_playMoves (ms : List EnvMove) (s : State) (q : Port) (hst : s.stalled = none)
    (h : takesAfter q (s.env q).connected (s.env q).takes (ms ++ s.sched.flatten) = true) : HostTakes q (playMoves ms s) := by
  induction ms generalizing s with
  | nil => exact ⟨hst, h⟩
  | cons m ms ih =>
    unfold playMoves
    split_ifs
    · exact ⟨by simpa using hst, by simpa using h⟩
    · obtain ⟨a, b, c, -⟩ := takeIrqs_frame (applyMove m s) q
      obtain ⟨a', b', c'⟩ := applyMove_frame s m (ms ++ s.sched.flatten) q
      refine ih _ ((a.trans a').trans hst) ?_
      rw [b, c, b', c']
      exact h

/-- An interrupt point keeps the environment's duty. -/
theorem hostTakes_point {s : State} {q : Port} (h : HostTakes q s) : HostTakes q (point s) := by
  unfold point
  split_ifs
  · exact h
  · obtain ⟨hst, ht⟩ := h
    split
    · obtain ⟨a, b, c, -⟩ := takeIrqs_frame s q
      exact hostTakes_congr ⟨hst, ht⟩ a (by rw [b]) (by rw [b]) c
    · rename_i ms rest hs
      have h1 : HostTakes q (playMoves ms (s.setSched rest)) :=
        hostTakes_playMoves _ _ _ (by simpa using hst) (by simpa [hs] using ht)
      obtain ⟨a, b, c, -⟩ := takeIrqs_frame (playMoves ms (s.setSched rest)) q
      exact hostTakes_congr h1 a (by rw [b]) (by rw [b]) c

theorem playMoves_sched (ms : List EnvMove) (s : State) :
    (playMoves ms s).sched = s.sched ∨ (playMoves ms s).resetReq.isSome = true := by
  induction ms generalizing s with
  | nil => exact .inl rfl
  | cons m ms ih =>
    unfold playMoves
    split_ifs with h
    · exact .inr (by simpa using h)
    · obtain ⟨-, -, c, -⟩ := takeIrqs_frame (applyMove m s) .p0
      have c' := (applyMove_frame s m [] .p0).2.1
      simpa [c, c'] using ih (takeIrqs (applyMove m s))

/-- After an interrupt point the rest of the schedule is left, or a device reset was requested. -/
theorem point_sched (s : State) (ms : List EnvMove) (rest : List (List EnvMove)) (h : s.sched = ms :: rest) :
    (point s).sched = rest ∨ (point s).resetReq.isSome = true := by
  unfold point
  split_ifs with hr
  · exact .inr hr
  · rw [h]
    obtain ⟨-, -, c, d⟩ := takeIrqs_frame (playMoves ms (s.setSched rest)) .p0
    simpa [c, d] using playMoves_sched ms (s.setSched rest)

theorem point_sched_nil (s : State) (h : s.sched = []) : (point s).sched = [] := by
  unfold point
  split_ifs
  · exact h
  · rw [h]
    exact (takeIrqs_frame s .p0).2.2.1.trans h

/-! ## Primitives -/

theorem hostTakes_sendBytes {p q : Port} (e : Event) (n : Nat) (ms : List (List EnvMove)) (k : Nat) (s : State)
    (hs : s.sched = ms ∨ s.resetReq.isSome = true) (hp : HostTakes p s) (hq : HostTakes q s) :
    HostTakes q (sendBytes p e n ms k s) := by
  induction ms generalizing k s with
  | nil =>
    unfold sendBytes
    split_ifs with h1 h2
    · exact hostTakes_setTrace hq _
    · exact hostTakes_setTrace hq _
    · simp only [Bool.or_eq_true, not_or] at h1
      have hn := hs.resolve_right h1.1
      have := hp.2
      rw [hn] at this
      simp_all [takesAfter]
  | cons m ms ih =>
    unfold sendBytes
    split_ifs with h1 h2 h3
    · exact hostTakes_setTrace hq _
    · simp only [Bool.or_eq_true, not_or] at h1
      exact ih _ _ (point_sched s m ms (hs.resolve_right h1.1)) (hostTakes_point hp) (hostTakes_point hq)
    · exact hostTakes_setTrace hq _
    · simp only [Bool.or_eq_true, not_or] at h1
      exact ih _ _ (point_sched s m ms (hs.resolve_right h1.1)) (hostTakes_point hp) (hostTakes_point hq)

/-- While the environment does its duty toward a port, a send on it is not stuck (R229). -/
theorem hostTakes_hostSend {s : State} {p q : Port} (e : Event) (hp : HostTakes p s) (hq : HostTakes q s) :
    HostTakes q (hostSend p e s) := by
  unfold hostSend
  dsimp only
  split_ifs
  · exact hostTakes_point hq
  · exact hostTakes_sendBytes _ _ _ _ _ (.inl rfl) (hostTakes_point hp) (hostTakes_point hq)

theorem hostTakes_effect {s : State} {q : Port} (f : State → State) (h : HostTakes q s) (hf : HostTakes q (f s)) :
    HostTakes q (effect f s) := by
  unfold effect; split_ifs <;> assumption

theorem hostTakes_emit {s : State} {q : Port} (e : Event) (h : HostTakes q s) : HostTakes q (emit e s) :=
  hostTakes_effect _ h (hostTakes_setTrace h _)

theorem hostTakes_delay {s : State} {q : Port} (p : Port) (d : DelayKind) (h : HostTakes q s) :
    HostTakes q (delay p d s) := hostTakes_emit _ (hostTakes_point h)

theorem hostTakes_uartPut {s : State} {q : Port} (p : Port) (b : Byte) (h : HostTakes q s) :
    HostTakes q (uartPut p b s) := hostTakes_emit _ (hostTakes_point h)

theorem hostTakes_outWrite {s : State} {q : Port} (p : Port) (w : OutWrite) (h : HostTakes q s) :
    HostTakes q (outWrite p w s) := hostTakes_emit _ (hostTakes_updOut (hostTakes_point h) _ _)

theorem hostTakes_outWritePair {s : State} {q : Port} (p : Port) (v w : OutWrite) (h : HostTakes q s) :
    HostTakes q (outWritePair p v w s) :=
  hostTakes_emit _ (hostTakes_emit _ (hostTakes_updOut (hostTakes_point h) _ _))

theorem hostTakes_tx {s : State} {q : Port} (p : Port) (k : TxKind) (c : MsgCode) (o : Objs) (h : HostTakes q s) :
    HostTakes q (tx p k c o s) := by
  refine hostTakes_emit _ ?_
  unfold drawRoles
  split
  · exact hostTakes_point h
  · exact hostTakes_setFreeCtr (hostTakes_point h) _

theorem hostTakes_tcpcReset {s : State} {q : Port} (p : Port) (h : HostTakes q s) : HostTakes q (tcpcReset p s) :=
  hostTakes_emit _ (hostTakes_effect _ (hostTakes_point h)
    (hostTakes_updEnv (hostTakes_point h) _ _ (fun _ => rfl) fun _ => rfl))

theorem hostTakes_intStatusReadClear {s : State} {q : Port} (p : Port) (h : HostTakes q s) :
    HostTakes q (intStatusReadClear p s).2 :=
  hostTakes_effect _ (hostTakes_point h) (hostTakes_updEnv (hostTakes_point h) _ _ (fun _ => rfl) fun _ => rfl)

theorem hostTakes_logLine {s : State} {p q : Port} (l : LogBody) (hp : HostTakes p s) (hq : HostTakes q s) :
    HostTakes q (logLine p l s) := by
  unfold logLine; split_ifs
  · exact hq
  · exact hostTakes_hostSend _ hp hq

theorem hostTakes_diagLines {p q : Port} (ts : List (List Byte)) (s : State) (hp : HostTakes p s) (hq : HostTakes q s) :
    HostTakes q (ts.foldl (fun s t => logLine p (.diag t) s) s) := by
  induction ts generalizing s with
  | nil => exact hq
  | cons t ts ih => exact ih _ (hostTakes_logLine _ hp hp) (hostTakes_logLine _ hp hq)

/-- The optional `DIAG` lines of a port's operation, while the environment does its duty toward that port. -/
theorem hostTakes_diag {s : State} {p q : Port} (hp : HostTakes p s) (hq : HostTakes q s) : HostTakes q (diag p s) := by
  unfold diag; split_ifs
  · exact hostTakes_diagLines _ _ (hostTakes_setFreeCtr hp _) (hostTakes_setFreeCtr hq _)
  · exact hq

end Sys2Proof.Machine
end

