-- ==== Sys2Proof/Laws/Memory.lean ====
section
/-! SUPPORT. The laws of the transceiver register space: a read after a write, and the canonical form kept by every
operation on it (assumption log 20). -/

namespace Sys2Proof.Machine

theorem readReg_consCell (a b : Nat) (v : Byte) (m : Memory) (h : readReg m a = unlistedReg) :
    readReg (consCell a v m) b = if b = a then v else readReg m b := by
  unfold consCell
  split_ifs with hv hb hb
  · subst hb; rw [h, hv]
  · rfl
  · simp [readReg, hb]
  · simp [readReg, hb]

theorem readReg_of_lt (m : Memory) (a : Nat) (h : ∀ c ∈ m, a < c.1) : readReg m a = unlistedReg := by
  induction m with
  | nil => rfl
  | cons c m ih =>
    have hc : a < c.1 := h c (by simp)
    simp only [readReg]
    rw [if_neg (by omega)]
    exact ih fun d hd => h d (by simp [hd])

theorem wf_cons_iff (c : Nat × Byte) (m : Memory) :
    Memory.wf (c :: m) = true ↔ (∀ d ∈ m, c.1 < d.1) ∧ c.2 ≠ unlistedReg ∧ Memory.wf m = true := by
  simp [Memory.wf, List.pairwise_cons]
  tauto

@[simp] theorem wf_nil : Memory.wf [] = true := by decide

/-- A read after a write, in a memory of canonical form (R61). -/
theorem readReg_writeReg (m : Memory) (h : Memory.wf m = true) (a b : Nat) (v : Byte) :
    readReg (writeReg m a v) b = if b = a then v else readReg m b := by
  induction m with
  | nil => exact readReg_consCell a b v [] rfl
  | cons c m ih =>
    obtain ⟨hlt, hne, hm⟩ := (wf_cons_iff c m).1 h
    by_cases h1 : a < c.1
    · simp only [writeReg, h1, if_true]
      exact readReg_consCell a b v _ (readReg_of_lt _ _ (by
        intro d hd
        rcases List.mem_cons.1 hd with rfl | hd
        · exact h1
        · exact h1.trans (hlt d hd)))
    by_cases h2 : a = c.1
    · subst h2
      simp only [writeReg, lt_irrefl, if_false, if_true]
      rw [readReg_consCell _ _ _ _ (readReg_of_lt _ _ hlt)]
      by_cases hb : b = c.1 <;> simp [readReg, hb]
    · have ih := ih hm
      simp only [writeReg, h1, h2, if_false, readReg]
      by_cases hb : b = c.1
      · simp [hb, Ne.symm h2]
      · simp [hb, ih]

/-- A write leaves every other register alone, in any memory (R61). -/
theorem readReg_writeReg_other (m : Memory) {a b : Nat} (h : b ≠ a) (v : Byte) :
    readReg (writeReg m a v) b = readReg m b := by
  have hc : ∀ m : Memory, readReg (consCell a v m) b = readReg m b := by
    intro m; unfold consCell; split_ifs <;> simp [readReg, h]
  induction m with
  | nil => exact hc []
  | cons c m ih =>
    simp only [writeReg]
    split_ifs with h1 h2
    · exact hc _
    · rw [hc]; simp [readReg, ← h2, h]
    · simp [readReg, ih]

theorem mem_consCell {a : Nat} {v : Byte} {m : Memory} {d : Nat × Byte} (h : d ∈ consCell a v m) :
    d = (a, v) ∨ d ∈ m := by
  unfold consCell at h
  split_ifs at h
  · exact .inr h
  · exact List.mem_cons.1 h

theorem mem_writeReg {m : Memory} {a : Nat} {v : Byte} {d : Nat × Byte} (h : d ∈ writeReg m a v) :
    d = (a, v) ∨ d ∈ m := by
  induction m with
  | nil => exact mem_consCell h
  | cons c m ih =>
    simp only [writeReg] at h
    split_ifs at h
    · exact mem_consCell h
    · rcases mem_consCell h with h | h <;> simp [h]
    · rcases List.mem_cons.1 h with h | h
      · simp [h]
      · rcases ih h with h | h <;> simp [h]

theorem wf_consCell {a : Nat} {v : Byte} {m : Memory} (h : Memory.wf m = true) (ha : ∀ d ∈ m, a < d.1) :
    Memory.wf (consCell a v m) = true := by
  unfold consCell
  split_ifs with hv
  · exact h
  · exact (wf_cons_iff _ _).2 ⟨ha, hv, h⟩

/-- A register write keeps the canonical form. -/
theorem wf_writeReg {m : Memory} (h : Memory.wf m = true) (a : Nat) (v : Byte) : Memory.wf (writeReg m a v) = true := by
  induction m with
  | nil => exact wf_consCell h (by simp)
  | cons c m ih =>
    obtain ⟨hlt, hne, hm⟩ := (wf_cons_iff c m).1 h
    simp only [writeReg]
    split_ifs with h1 h2
    · refine wf_consCell h fun d hd => ?_
      rcases List.mem_cons.1 hd with rfl | hd
      · exact h1
      · exact h1.trans (hlt d hd)
    · subst h2; exact wf_consCell hm hlt
    · refine (wf_cons_iff _ _).2 ⟨fun d hd => ?_, hne, ih hm⟩
      rcases mem_writeReg hd with rfl | hd
      · show c.1 < a; omega
      · exact hlt d hd

/-- A two-byte register write keeps the canonical form (R61). -/
theorem wf_writeReg16 {m : Memory} (h : Memory.wf m = true) (a : Nat) (v : BitVec 16) :
    Memory.wf (writeReg16 m a v) = true := by
  unfold writeReg16
  dsimp only
  split <;> exact wf_writeReg (wf_writeReg h _ _) _ _

/-- A two-byte register write leaves every other register alone, in any memory (R61). -/
theorem readReg_writeReg16_other (m : Memory) {a b : Nat} (h : b ≠ a) (h1 : b ≠ a + 1) (v : BitVec 16) :
    readReg (writeReg16 m a v) b = readReg m b := by
  unfold writeReg16
  dsimp only
  split <;> rw [readReg_writeReg_other _ h1, readReg_writeReg_other _ h]

/-- A `MemWrite` of either width keeps the canonical form (R12, R61). -/
theorem wf_memWrite {m t : Memory} (h : Memory.wf m = true) {a n v : Nat} (hw : memWrite m a n v = some t) :
    Memory.wf t = true := by
  unfold memWrite at hw
  split at hw
  · cases hw; exact wf_writeReg h _ _
  · cases hw; exact wf_writeReg16 h _ _
  · cases hw

/-- A write of all three status registers keeps the canonical form. -/
theorem wf_putStatus {m : Memory} (h : Memory.wf m = true) (c : Params) (x : StatusBytes) :
    Memory.wf (putStatus c m x) = true := wf_writeReg (wf_writeReg (wf_writeReg h _ _) _ _) _ _

/-- Latching events keeps the canonical form. -/
theorem wf_latchStatus {m : Memory} (h : Memory.wf m = true) (c : Params) (x : StatusBytes) :
    Memory.wf (latchStatus c m x) = true := wf_putStatus h c _

/-- A register other than the three status registers reads as before after they are written. -/
theorem readReg_putStatus_other (m : Memory) (c : Params) (x : StatusBytes) {a : Nat}
    (h0 : a ≠ c.intStatusAddrA) (h1 : a ≠ c.intStatusAddrB) (h2 : a ≠ c.intStatusAddrC) :
    readReg (putStatus c m x) a = readReg m a := by
  unfold putStatus
  rw [readReg_writeReg_other _ h2, readReg_writeReg_other _ h1, readReg_writeReg_other _ h0]

/-- The three status registers read back what was written, when their addresses differ. -/
theorem latchedStatus_putStatus {m : Memory} (h : Memory.wf m = true) (c : Params) (x : StatusBytes)
    (h01 : c.intStatusAddrA ≠ c.intStatusAddrB) (h02 : c.intStatusAddrA ≠ c.intStatusAddrC)
    (h12 : c.intStatusAddrB ≠ c.intStatusAddrC) : latchedStatus c (putStatus c m x) = x := by
  have e : ∀ a, readReg (putStatus c m x) a = if a = c.intStatusAddrC then x.rc else
      if a = c.intStatusAddrB then x.rb else if a = c.intStatusAddrA then x.ra else readReg m a := by
    intro a
    unfold putStatus
    rw [readReg_writeReg _ (wf_writeReg (wf_writeReg h _ _) _ _), readReg_writeReg _ (wf_writeReg h _ _),
      readReg_writeReg _ h]
  simp [latchedStatus, e, h01, h02, h12]

/-- Every register space right after reset is in canonical form. -/
theorem reset_memory_wf (p : Port) : Memory.wf (State.reset.env p).tcpc = true := by cases p <;> decide

end Sys2Proof.Machine
end

