-- ==== Sys2Proof/Laws/PerInstr.lean ====
section
/-! SUPPORT. Per instruction: the encoding of an operation names exactly the port the operation acts on (R12, R91,
R104). -/

namespace Sys2Proof.Laws.PortOperand

open Sys2Proof.Machine

/-- The port index a selector carries, if it carries one. -/
def selectorPort : Selector → Option Nat
  | .byte p _ _ | .evt p _ | .msg p _ | .vdm p _ | .procPort _ p | .procOnMessage p _ | .procRingPut p _ => some p
  | .call (.setup p) | .call (.uartByte p _) | .call (.breakBegin p _) | .call (.breakEnd p _) => some p
  | .call .chipIrq | .call (.deviceReset _) | .procDevice _ => none

/-- The encoding of an operation carries the index of the port the operation acts on, and no other. -/
def Statement (i : Instr) : Prop := selectorPort (encode i) = (instrPort i).map Port.index

theorem setup (p : Port) : Statement (.setup p) := rfl
theorem tick (p : Port) : Statement (.tick p) := rfl
theorem pollDisconnected (p : Port) : Statement (.pollDisconnected p) := rfl
theorem onAttach (p : Port) : Statement (.onAttach p) := rfl
theorem tickVbusOn (p : Port) : Statement (.tickVbusOn p) := rfl
theorem tickReady (p : Port) : Statement (.tickReady p) := rfl
theorem debounce (p : Port) : Statement (.debounce p) := rfl
theorem onTxComplete (p : Port) : Statement (.onTxComplete p) := rfl
theorem disconnect (p : Port) : Statement (.disconnect p) := rfl
theorem vbusOff (p : Port) : Statement (.vbusOff p) := rfl
theorem onMessage (p : Port) (m : RxRecord) : Statement (.onMessage p m) := rfl
theorem rxSourceCap (p : Port) (m : Msg) : Statement (.rxSourceCap p m) := rfl
theorem rxRequest (p : Port) (m : Msg) : Statement (.rxRequest p m) := rfl
theorem rxVdm (p : Port) (m : Msg) : Statement (.rxVdm p m) := rfl
theorem rxPrSwap (p : Port) (m : Msg) : Statement (.rxPrSwap p m) := rfl
theorem rxDrSwap (p : Port) (m : Msg) : Statement (.rxDrSwap p m) := rfl
theorem rxGetSinkCap (p : Port) (m : Msg) : Statement (.rxGetSinkCap p m) := rfl
theorem rxEmpty (p : Port) (m : RxRecord) : Statement (.rxEmpty p m) := rfl
theorem rxOther (p : Port) (m : Msg) : Statement (.rxOther p m) := rfl
theorem vdmDiscoverIdentityReq (p : Port) (m : Msg) : Statement (.vdmDiscoverIdentityReq p m) := rfl
theorem vdmDiscoverIdentityAck (p : Port) (m : Msg) : Statement (.vdmDiscoverIdentityAck p m) := rfl
theorem vdmOther (p : Port) (m : Msg) : Statement (.vdmOther p m) := rfl
theorem txSourceCap (p : Port) : Statement (.txSourceCap p) := rfl
theorem txRequest (p : Port) : Statement (.txRequest p) := rfl
theorem txAccept (p : Port) : Statement (.txAccept p) := rfl
theorem txReject (p : Port) : Statement (.txReject p) := rfl
theorem txPsRdy (p : Port) : Statement (.txPsRdy p) := rfl
theorem txSinkCap (p : Port) : Statement (.txSinkCap p) := rfl
theorem txProbe (p : Port) : Statement (.txProbe p) := rfl
theorem txIdentityAck (p : Port) : Statement (.txIdentityAck p) := rfl
theorem txVdmReboot (p : Port) : Statement (.txVdmReboot p) := rfl
theorem txVdmDfuHold (p : Port) : Statement (.txVdmDfuHold p) := rfl
theorem txVdmPdReset (p : Port) : Statement (.txVdmPdReset p) := rfl
theorem txVdmSerialRoute (p : Port) : Statement (.txVdmSerialRoute p) := rfl
theorem irqHandler : Statement (.irqHandler) := rfl
theorem service (p : Port) : Statement (.service p) := rfl
theorem evVbusGood (p : Port) : Statement (.evVbusGood p) := rfl
theorem evHardReset (p : Port) : Statement (.evHardReset p) := rfl
theorem evTxSuccess (p : Port) : Statement (.evTxSuccess p) := rfl
theorem evMsgRx (p : Port) : Statement (.evMsgRx p) := rfl
theorem rearm (p : Port) : Statement (.rearm p) := rfl
theorem muxPump (p : Port) : Statement (.muxPump p) := rfl
theorem pass (p : Port) (b : Byte) : Statement (.pass p b) := rfl
theorem escArm (p : Port) : Statement (.escArm p) := rfl
theorem escLiteral (p : Port) : Statement (.escLiteral p) := rfl
theorem cmdRebootTarget (p : Port) : Statement (.cmdRebootTarget p) := rfl
theorem cmdSelfReset (p : Port) : Statement (.cmdSelfReset p) := rfl
theorem cmdFwUpdate (p : Port) : Statement (.cmdFwUpdate p) := rfl
theorem cmdForceDisconnect (p : Port) : Statement (.cmdForceDisconnect p) := rfl
theorem cmdToggleVerbose (p : Port) : Statement (.cmdToggleVerbose p) := rfl
theorem cmdDebugProbe (p : Port) : Statement (.cmdDebugProbe p) := rfl
theorem cmdRoute1 (p : Port) : Statement (.cmdRoute1 p) := rfl
theorem cmdRoute2 (p : Port) : Statement (.cmdRoute2 p) := rfl
theorem cmdHelp (p : Port) : Statement (.cmdHelp p) := rfl
theorem cmdDrop (p : Port) (b : Byte) : Statement (.cmdDrop p b) := rfl
theorem breakBegin (p : Port) (hint : Nat) : Statement (.breakBegin p hint) := rfl
theorem breakEnd (p : Port) (hint : Nat) : Statement (.breakEnd p hint) := rfl
theorem uartRxIrq (p : Port) (b : Byte) : Statement (.uartRxIrq p b) := rfl
theorem ringPut (p : Port) (b : Byte) : Statement (.ringPut p b) := rfl
theorem ringGet (p : Port) : Statement (.ringGet p) := rfl
theorem drainToHost (p : Port) : Statement (.drainToHost p) := rfl
theorem mainEntry : Statement (.mainEntry) := rfl
theorem runPass : Statement (.runPass) := rfl
theorem transportService : Statement (.transportService) := rfl
theorem idleWait : Statement (.idleWait) := rfl
theorem deviceReset (c : ResetCause) : Statement (.deviceReset c) := rfl

end Sys2Proof.Laws.PortOperand
end

