-- ==== Sys2Proof/Laws/Quiet.lean ====
section
/-! SUPPORT. What the primitives do in a quiet environment: `Notes s t es` says that `t` is `s` but for the free-value
counter and the trace, to which the named events `es` were added; one lemma per primitive says so. -/

namespace Sys2Proof.Machine

@[simp] theorem namedTrace_nil : namedTrace [] = [] := rfl

@[simp] theorem namedTrace_append (a b : List Event) : namedTrace (a ++ b) = namedTrace a ++ namedTrace b := by
  simp [namedTrace]

theorem namedTrace_cons (e : Event) (t : List Event) :
    namedTrace (e :: t) = if e.named then e :: namedTrace t else namedTrace t := by
  simp [namedTrace, List.filter_cons]

theorem adds_trans {s t u : State} {es fs : List Event} (h : Adds s t es) (h' : Adds t u fs) : Adds s u (es ++ fs) := by
  unfold Adds at *
  rw [h', h, List.append_assoc]

/-- `t` is `s` but for the free-value counter and the trace; the named events `es` were added. -/
def Notes (s t : State) (es : List Event) : Prop :=
  ∃ n ls, t = (s.setFreeCtr n).setTrace (s.trace ++ ls) ∧ namedTrace ls = es

theorem notes_refl (s : State) : Notes s s [] := ⟨s.freeCtr, [], by simp [State.setFreeCtr, State.setTrace], rfl⟩

theorem notes_trans {s t u : State} {es fs : List Event} (h : Notes s t es) (h' : Notes t u fs) :
    Notes s u (es ++ fs) := by
  obtain ⟨n, l, rfl, rfl⟩ := h
  obtain ⟨n', l', rfl, rfl⟩ := h'
  exact ⟨n', l ++ l', by simp [State.setFreeCtr, State.setTrace], by simp⟩

theorem notes_trans_nil {s t u : State} {es : List Event} (h : Notes s t []) (h' : Notes t u es) : Notes s u es :=
  notes_trans h h'

theorem notes_setFreeCtr (s : State) (n : Nat) : Notes s (s.setFreeCtr n) [] :=
  ⟨n, [], by simp [State.setFreeCtr, State.setTrace], rfl⟩

theorem notes_emit {s : State} (h : Quiet s) (e : Event) : Notes s (emit e s) (namedTrace [e]) :=
  ⟨s.freeCtr, [e], by rw [emit_of_quiet h]; simp [State.setFreeCtr, State.setTrace], rfl⟩

/-! ## What a note keeps -/

theorem notes_quiet {s t : State} {es : List Event} (h : Notes s t es) (hq : Quiet s) : Quiet t := by
  obtain ⟨n, l, rfl, -⟩ := h
  exact quiet_setTrace (quiet_setFreeCtr hq _) _

theorem notes_adds {s t : State} {es : List Event} (h : Notes s t es) : Adds s t es := by
  obtain ⟨n, l, rfl, rfl⟩ := h
  simp [Adds]

theorem notes_mainKept {s t : State} {es : List Event} (h : Notes s t es) : MainKept s t := by
  obtain ⟨n, l, rfl, -⟩ := h
  constructor <;> simp

theorem notes_boundaryKept {s t : State} {es : List Event} (h : Notes s t es) : BoundaryKept s t := by
  obtain ⟨n, l, rfl, -⟩ := h
  constructor <;> simp

/-! ## The primitives -/

theorem delay_of_quiet {s : State} (h : Quiet s) (p : Port) (d : DelayKind) :
    delay p d s = s.setTrace (s.trace ++ [.delay p d]) := by
  simp [delay, point_of_quiet h, emit_of_quiet h]

theorem notes_delay {s : State} (h : Quiet s) (p : Port) (d : DelayKind) : Notes s (delay p d s) [.delay p d] := by
  rw [delay, point_of_quiet h]; exact notes_emit h _

theorem notes_uartPut {s : State} (h : Quiet s) (p : Port) (b : Byte) : Notes s (uartPut p b s) [.uart p b] := by
  rw [uartPut, point_of_quiet h]; exact notes_emit h _

theorem notes_hostSend {s : State} (h : Quiet s) (p : Port) (e : Event) :
    Notes s (hostSend p e s) (if (s.env p).connected then namedTrace [e] else []) := by
  rw [hostSend_of_quiet h]
  split_ifs
  · rw [← emit_of_quiet h]; exact notes_emit h _
  · have hc : cutEvents 0 e = [] := by cases e <;> rfl
    exact ⟨s.freeCtr, [], by simp [hc, State.setFreeCtr, State.setTrace], rfl⟩

/-- A log line of class `ALWAYS` is sent, unless the channel is disconnected. -/
theorem notes_logLine_always {s : State} (h : Quiet s) (p : Port) (l : LogBody) (hl : verboseClass l = false) :
    Notes s (logLine p l s) (if (s.env p).connected then [.log p l] else []) := by
  have := notes_hostSend h p (.log p l)
  simpa [logLine, hl, namedTrace, Event.named] using this

/-- A log line of class `VERBOSE` is no named event. -/
theorem notes_logLine_verbose {s : State} (h : Quiet s) (p : Port) (l : LogBody) (hl : verboseClass l = true) :
    Notes s (logLine p l s) [] := by
  unfold logLine
  split_ifs
  · exact notes_refl s
  · have := notes_hostSend h p (.log p l)
    simpa [namedTrace, Event.named, hl] using this

theorem notes_diagLines {s : State} (h : Quiet s) (p : Port) (ts : List (List Byte)) :
    Notes s (ts.foldl (fun s t => logLine p (.diag t) s) s) [] := by
  induction ts generalizing s with
  | nil => exact notes_refl s
  | cons t ts ih =>
    have h1 := notes_logLine_verbose h p (.diag t) rfl
    exact notes_trans_nil h1 (ih (notes_quiet h1 h))

/-- The optional `DIAG` lines of an operation are no named event and change nothing else. -/
theorem notes_diag {s : State} (h : Quiet s) (p : Port) : Notes s (diag p s) [] := by
  unfold diag
  split_ifs
  · exact notes_trans_nil (notes_setFreeCtr s _) (notes_diagLines (quiet_setFreeCtr h _) p _)
  · exact notes_refl s

theorem quiet_diag {s : State} (h : Quiet s) (p : Port) : Quiet (diag p s) := notes_quiet (notes_diag h p) h

theorem notes_drawRoles (s : State) (p : Port) : Notes s (drawRoles p s) [] := by
  unfold drawRoles
  split
  · exact notes_refl s
  · exact notes_setFreeCtr s _

/-- One transmission, with the message that `Tx` builds (R149). -/
theorem notes_tx {s : State} (h : Quiet s) (p : Port) (k : TxKind) (c : MsgCode) (o : Objs) :
    Notes s (tx p k c o s) [.tx p k (buildMsg p c o s)] := by
  rw [tx, point_of_quiet h]
  have h1 := notes_drawRoles s p
  exact notes_trans_nil h1 (notes_emit (notes_quiet h1 h) _)

theorem txMessage_buildMsg (s : State) (p : Port) (c : MsgCode) (o : Objs) : TxMessage s p c o (buildMsg p c o s) := by
  refine ⟨rfl, rfl, rfl, fun h => ?_⟩
  simp [buildMsg, headerRoles, h]

theorem txMessage_congr {s t : State} {p : Port} {c : MsgCode} {o : Objs} {m : Msg} (hc : t.cfg = s.cfg)
    (ho : (t.out p).hdrRole = (s.out p).hdrRole) (h : TxMessage t p c o m) : TxMessage s p c o m := by
  simpa [TxMessage, hc, ho] using h

/-- A transmission after the optional `DIAG` lines. -/
theorem notes_diag_tx {s : State} (h : Quiet s) (p : Port) (k : TxKind) (c : MsgCode) (o : Objs) :
    ∃ m, TxMessage s p c o m ∧ Notes s (tx p k c o (diag p s)) [.tx p k m] :=
  ⟨_, txMessage_congr (by simp) (by simp) (txMessage_buildMsg (diag p s) p c o),
    notes_trans_nil (notes_diag h p) (notes_tx (quiet_diag h p) p k c o)⟩

/-- Recording a condition: its event, then the log line of class `ALWAYS` of its response (R240, R246). -/
theorem notes_raise {s : State} (h : Quiet s) (c : Condition) :
    Notes s (raise c s) (match c with
      | .absence p a => .raised c :: (if (s.env p).connected then [.log p (.absent a)] else [])
      | .transientNoise _ _ => []
      | .protocolViolationMsg p m => .raised c :: (if (s.env p).connected then [.log p (.unhandledMsg m)] else [])
      | .protocolViolationVdm p m => .raised c :: (if (s.env p).connected then [.log p (.unhandledVdm m)] else [])
      | .hardFailure _ _ => [.raised c]
      | .operatorFatal _ => [.raised c]) := by
  have key : ∀ p l, verboseClass l = false →
      Notes s (logLine p l (emit (.raised c) s))
        (.raised c :: (if (s.env p).connected then [.log p l] else [])) := by
    intro p l hl
    have h2 := notes_logLine_always (quiet_emit h (.raised c)) p l hl
    have e : ((emit (.raised c) s).env p).connected = (s.env p).connected := by rw [emit_of_quiet h]; simp
    rw [e] at h2
    exact notes_trans (notes_emit h (.raised c)) h2
  cases c with
  | absence p a => exact key p _ rfl
  | transientNoise p n => exact notes_refl s
  | protocolViolationMsg p m => exact key p _ rfl
  | protocolViolationVdm p m => exact key p _ rfl
  | hardFailure p a => exact notes_emit h _
  | operatorFatal a => exact notes_emit h _

/-! ## Output writes -/

theorem outWrite_of_quiet {s : State} (h : Quiet s) (p : Port) (w : OutWrite) :
    outWrite p w s = (s.updOut p (writeOutput w)).setTrace (s.trace ++ [.out p w]) := by
  rw [outWrite, point_of_quiet h, emit_of_quiet (quiet_updOut h _ _)]
  simp

theorem quiet_outWrite {s : State} (h : Quiet s) (p : Port) (w : OutWrite) : Quiet (outWrite p w s) := by
  rw [outWrite_of_quiet h]; exact quiet_setTrace (quiet_updOut h _ _) _

/-- An output write: the output record, one event, nothing else. -/
theorem notes_outWrite {s : State} (h : Quiet s) (p : Port) (w : OutWrite) :
    Notes (s.updOut p (writeOutput w)) (outWrite p w s) [.out p w] := by
  rw [outWrite_of_quiet h]
  exact ⟨s.freeCtr, [.out p w], by cases p <;> rfl, rfl⟩

/-- A simultaneous write of two outputs: the output record, two events in order, nothing else. -/
theorem notes_outWritePair {s : State} (h : Quiet s) (p : Port) (v w : OutWrite) :
    Notes (s.updOut p fun o => writeOutput w (writeOutput v o)) (outWritePair p v w s) [.out p v, .out p w] := by
  have hq := quiet_updOut h p fun o => writeOutput w (writeOutput v o)
  rw [outWritePair, point_of_quiet h]
  exact notes_trans (notes_emit hq _) (notes_emit (quiet_emit hq _) _)

theorem quiet_outWritePair {s : State} (h : Quiet s) (p : Port) (v w : OutWrite) : Quiet (outWritePair p v w s) :=
  notes_quiet (notes_outWritePair h p v w) (quiet_updOut h _ _)

theorem notes_updOut {s t : State} {es : List Event} (h : Notes s t es) (p : Port) (f : Outputs → Outputs) :
    Notes (s.updOut p f) (t.updOut p f) es := by
  obtain ⟨n, l, rfl, he⟩ := h
  exact ⟨n, l, by cases p <;> rfl, he⟩

theorem notes_updRegs {s t : State} {es : List Event} (h : Notes s t es) (p : Port) (f : PortRegs → PortRegs) :
    Notes (s.updRegs p f) (t.updRegs p f) es := by
  obtain ⟨n, l, rfl, he⟩ := h
  exact ⟨n, l, by cases p <;> rfl, he⟩

theorem notes_updShared {s t : State} {es : List Event} (h : Notes s t es) (p : Port) (f : Shared → Shared) :
    Notes (s.updShared p f) (t.updShared p f) es := by
  obtain ⟨n, l, rfl, he⟩ := h
  exact ⟨n, l, by cases p <;> rfl, he⟩

theorem notes_updEnv {s t : State} {es : List Event} (h : Notes s t es) (p : Port) (f : EnvPort → EnvPort) :
    Notes (s.updEnv p f) (t.updEnv p f) es := by
  obtain ⟨n, l, rfl, he⟩ := h
  exact ⟨n, l, by cases p <;> rfl, he⟩

/-- One more output write after a note. -/
theorem notes_then_out {s t : State} {es : List Event} (h : Notes s t es) (hq : Quiet t) (p : Port) (w : OutWrite) :
    Notes (s.updOut p (writeOutput w)) (outWrite p w t) (es ++ [.out p w]) :=
  notes_trans (notes_updOut h p _) (notes_outWrite hq p w)

/-! ## The chip -/

theorem quiet_updEnv {s : State} (h : Quiet s) (p : Port) (f : EnvPort → EnvPort) (hf : ∀ e, (f e).line = e.line)
    (hc : ∀ e, (f e).connected = e.connected) (ht : ∀ e, (f e).takes = e.takes) : Quiet (s.updEnv p f) :=
  quiet_congr h (by simp) (by simp) (by intro q; simp only [irqReady, State.live, running, env_updEnv]; split_ifs <;> simp [hf])
    (by simp) (by intro q; simp only [env_updEnv]; split_ifs <;> simp [hc])
    (by intro q; simp only [env_updEnv]; split_ifs <;> simp [ht])

/-- A PD reset of the chip: the queue and the status registers the environment holds ready, one event (R285). -/
theorem notes_tcpcReset {s : State} (h : Quiet s) (p : Port) :
    Notes (s.updEnv p fun e => { e with rx := e.afterResetRx, tcpc := putStatus s.cfg e.tcpc e.afterResetStatus })
      (tcpcReset p s) [.tcpcReset p] := by
  have e : tcpcReset p s = emit (.tcpcReset p) (s.updEnv p fun e =>
      { e with rx := e.afterResetRx, tcpc := putStatus s.cfg e.tcpc e.afterResetStatus }) := by
    rw [tcpcReset, point_of_quiet h]
    simp only [effect, quiet_resetReq h]
    rfl
  rw [e]
  refine notes_emit (quiet_updEnv h p _ ?_ ?_ ?_) _ <;> intro e <;> rfl

theorem quiet_tcpcReset {s : State} (h : Quiet s) (p : Port) : Quiet (tcpcReset p s) :=
  notes_quiet (notes_tcpcReset h p) (by refine quiet_updEnv h p _ ?_ ?_ ?_ <;> intro e <;> rfl)

theorem quiet_delay {s : State} (h : Quiet s) (p : Port) (d : DelayKind) : Quiet (delay p d s) :=
  notes_quiet (notes_delay h p d) h

theorem quiet_raise {s : State} (h : Quiet s) (c : Condition) : Quiet (raise c s) := notes_quiet (notes_raise h c) h

theorem quiet_tx {s : State} (h : Quiet s) (p : Port) (k : TxKind) (c : MsgCode) (o : Objs) : Quiet (tx p k c o s) :=
  notes_quiet (notes_tx h p k c o) h

end Sys2Proof.Machine
end

