-- ==== Sys2Proof/Laws/Ring.lean ====
section
/-! SUPPORT. The laws of the circular buffer: well-formed cursors are kept (R212), and every operation in terms of the
bytes held (R70, R209, R210). -/

namespace Sys2Proof.Machine

theorem ring_wf_iff (S : Nat) (x : Ring) : x.wf S = true ↔ x.buf.length = S ∧ x.r < S ∧ x.w < S := by
  simp [Ring.wf, and_assoc]

theorem nextSlot_lt {S : Nat} (h : 0 < S) (i : Nat) : nextSlot S i < S := Nat.mod_lt _ h

theorem wf_emptyRing {S : Nat} (h : 0 < S) : (emptyRing S).wf S = true := by
  simp [ring_wf_iff, emptyRing, h]

theorem wf_ringPush {S : Nat} {x : Ring} (h : x.wf S = true) (b : Byte) : (ringPush S b x).wf S = true := by
  obtain ⟨h1, h2, h3⟩ := (ring_wf_iff S x).1 h
  have hS : 0 < S := by omega
  rw [ring_wf_iff]
  refine ⟨by simp [ringPush, h1], ?_, nextSlot_lt hS _⟩
  simp only [ringPush]
  split_ifs
  · exact nextSlot_lt hS _
  · exact h2

theorem wf_ringPop {S : Nat} {x : Ring} (h : x.wf S = true) : (ringPop S x).2.wf S = true := by
  obtain ⟨h1, h2, h3⟩ := (ring_wf_iff S x).1 h
  unfold ringPop
  split_ifs
  · exact h
  · exact (ring_wf_iff _ _).2 ⟨h1, nextSlot_lt (by omega) _, h3⟩

theorem ringCount_lt {S : Nat} {x : Ring} (h : x.wf S = true) : ringCount S x < S := by
  obtain ⟨_, h2, _⟩ := (ring_wf_iff S x).1 h
  exact Nat.mod_lt _ (by omega)

theorem ringCount_pop {S : Nat} {x : Ring} (h : x.wf S = true) (hne : x.r ≠ x.w) :
    ringCount S x = ringCount S (ringPop S x).2 + 1 := by
  obtain ⟨_, h2, h3⟩ := (ring_wf_iff S x).1 h
  simp only [ringCount, ringPop, hne, if_false, nextSlot]
  by_cases hr : x.r + 1 = S
  · have : (x.r + 1) % S = 0 := by rw [hr]; exact Nat.mod_self S
    rw [this, Nat.mod_eq_of_lt (by omega : x.w + S - x.r < S)]
    simp only [Nat.sub_zero, Nat.add_mod_right, Nat.mod_eq_of_lt h3]
    omega
  · have : (x.r + 1) % S = x.r + 1 := Nat.mod_eq_of_lt (by omega)
    rw [this]
    by_cases hlt : x.r < x.w
    · have e1 : x.w + S - x.r = (x.w - x.r) + S := by omega
      have e2 : x.w + S - (x.r + 1) = (x.w - (x.r + 1)) + S := by omega
      rw [e1, e2, Nat.add_mod_right, Nat.add_mod_right, Nat.mod_eq_of_lt (by omega), Nat.mod_eq_of_lt (by omega)]
      omega
    · rw [Nat.mod_eq_of_lt (by omega : x.w + S - x.r < S), Nat.mod_eq_of_lt (by omega : x.w + S - (x.r + 1) < S)]
      omega

/-- The bytes held are the oldest one and the bytes held after it was taken (R210). -/
theorem ringContents_pop {S : Nat} {x : Ring} (h : x.wf S = true) (hne : x.r ≠ x.w) :
    ringContents S x = x.buf.getD x.r 0 :: ringContents S (ringPop S x).2 := by
  obtain ⟨_, h2, h3⟩ := (ring_wf_iff S x).1 h
  unfold ringContents
  rw [ringCount_pop h hne, List.range_succ_eq_map, List.map_cons, List.map_map]
  refine congrArg₂ _ (by rw [Nat.add_zero, Nat.mod_eq_of_lt h2]) (List.map_congr_left fun i _ => ?_)
  simp only [ringPop, hne, if_false, nextSlot, Function.comp, Nat.mod_add_mod]
  congr 2
  omega

/-- A ring whose cursors are equal holds nothing, and no other does. -/
theorem ringContents_eq_nil {S : Nat} {x : Ring} (h : x.wf S = true) : ringContents S x = [] ↔ x.r = x.w := by
  constructor
  · intro e
    by_contra hne
    rw [ringContents_pop h hne] at e
    exact List.cons_ne_nil _ _ e
  · intro e
    obtain ⟨_, h2, h3⟩ := (ring_wf_iff S x).1 h
    simp [ringContents, ringCount, e]

end Sys2Proof.Machine
end

