-- ==== Sys2Proof/Tests/Slice0.lean ====
section
/-! SUPPORT. Tests: expected results from spec/95_test_vectors.md and the encoding tables of spec/30_encoding.md, each on one
operation or one step of a small state; ill-formed operations; decoding; and for every statement with hypotheses a
concrete state that meets them. -/

namespace Sys2Proof.Tests

open Sys2Proof.Machine

/-! ## The test machine -/

/-- Parameters of the vectors (95_test_vectors.md): threshold 2, CC levels to 3, capacity 4. -/
def cfg : Params where
  attachThreshold := 2
  ccMax := 3
  ringCap := 4
  idRegAddr := 1
  idValidMask := 0x80
  intStatusAddrA := 0x3E
  intStatusAddrB := 0x3F
  intStatusAddrC := 0x42
  evVbusGood := ⟨0, 7⟩
  evHardReset := ⟨0, 0⟩
  evTxSuccess := ⟨0, 2⟩
  evMsgRx := ⟨1, 0⟩
  msgCodes := MsgCodes.default
  discIdReq := [⟨0x80DF, 0x8001⟩]
  discIdAck := [⟨0x80DF, 0x8041⟩]
  specRev := 1
  srcCapObjs := Objs.clip [10]
  requestObjs := Objs.clip [11]
  sinkCapObjs := Objs.clip [12]
  identityObjs := Objs.clip [0x8041, 13]
  probeCode := .vendorDefined
  probeObjs := Objs.clip [14]
  actions :=
    { reboot := Objs.clip [20, 1]
      dfuHold := Objs.clip [20, 2]
      pdReset := Objs.clip [20, 3]
      routePrimary := Objs.clip [20, 4]
      routeAlt := Objs.clip [20, 5]
      routeSbu := Objs.clip [20, 6] }
  portTag0 := 0x30
  portTag1 := 0x31
  routeOfKey1 := .primaryUsb
  routeOfKey2 := .sbu
  indicatorLevel := .asserted
  verboseReset := false

/-- A port right after `SETUP` of a present port. -/
def port : PortState where
  regs := setUpRegs cfg
  out := { setUpOut cfg with hdrRole := .source }
  shared := ⟨false, true, emptyRing 5⟩
  env := EnvPort.reset

/-- Both ports set up and present, the first pass next. -/
def base : State where
  cfg := cfg
  port0 := port
  port1 := port
  wdogArmed := false
  halt := .running
  pos := .turn .p0
  calls := []
  sched := []
  wake := false
  resetReq := none
  stalled := none
  ret := none
  freeCtr := 0
  trace := []

/-- `base` with other fields of `P[0]`. -/
def withRegs (f : PortRegs → PortRegs) : State := base.updRegs .p0 f

/-- `base` with port 0 in a policy state. -/
def inState (x : PolicyState) : State := withRegs fun r => { r with ps := x }

/-- Other levels, queues or registers at the boundary of port 0. -/
def withEnv (s : State) (f : EnvPort → EnvPort) : State := s.updEnv .p0 f

/-- The CC levels of port 0. -/
def withCc (s : State) (a b : Nat) : State := withEnv s fun e => { e with cc1 := a, cc2 := b }

/-- A state before `MAIN_ENTRY`, in which port 0 reads an identity value. -/
def fresh (id : Byte) : State :=
  { base with
    port0 := { PortState.reset 5 with env := { EnvPort.reset with tcpc := [(1, id)] } }
    port1 := PortState.reset 5
    pos := .entry }

/-- Port 0 armed. -/
def armed : State := withRegs fun r => { r with esc := true }

/-- A connected host that takes nothing, and a ring that holds one byte for it. -/
def deaf : State :=
  (withEnv base fun e => { e with takes := false }).updShared .p0 fun x => { x with ring := ⟨[0x68, 0, 0, 0, 0], 0, 1⟩ }

/-- As `deaf`, on both ports. -/
def bothDeaf : State :=
  (deaf.updEnv .p1 fun e => { e with takes := false }).updShared .p1 fun x => { x with ring := ⟨[0x68, 0, 0, 0, 0], 0, 1⟩ }

/-- The next state of an outcome. -/
def next? : Host.Outcome State Fault Refusal → Option State
  | .next s => some s
  | .fault _ | .refused _ => none

/-- One operation. -/
def run (i : Instr) (s : State) : Option State := next? (exec i s)

/-- A control message of a type, and a data message with one object. -/
def ctl (t : Nat) : Msg := ⟨t, .sink, .ufp, 2, Objs.clip []⟩
/-- A data message with one object. -/
def dat (t : Nat) (o : Obj) : Msg := ⟨t, .sink, .ufp, 2, Objs.clip [o]⟩

/-- The kinds transmitted, in order. -/
def sent (s : State) : List TxKind := s.trace.filterMap fun e => match e with
  | .tx _ k _ => some k
  | _ => none

/-! ## Ill-formed operations -/

theorem test_wellFormed_refuses_pass_of_escape : wellFormed cfg (.pass .p0 0x1F) = false := by decide

theorem test_wellFormed_refuses_drop_of_command : wellFormed cfg (.cmdDrop .p0 0x3F) = false := by decide

theorem test_wellFormed_refuses_sourceCap_without_object :
    wellFormed cfg (.rxSourceCap .p0 (ctl 1)) = false :=
  by decide

theorem test_wellFormed_refuses_request_without_object : wellFormed cfg (.rxRequest .p0 (ctl 2)) = false := by decide

theorem test_wellFormed_refuses_vdm_without_object : wellFormed cfg (.rxVdm .p0 (ctl 15)) = false := by decide

theorem test_wellFormed_refuses_prSwap_with_object : wellFormed cfg (.rxPrSwap .p0 (dat 10 0)) = false := by decide

theorem test_wellFormed_refuses_drSwap_with_object : wellFormed cfg (.rxDrSwap .p0 (dat 9 0)) = false := by decide

theorem test_wellFormed_refuses_getSinkCap_with_object :
    wellFormed cfg (.rxGetSinkCap .p0 (dat 8 0)) = false :=
  by decide

theorem test_wellFormed_refuses_empty_with_object :
    wellFormed cfg (.rxEmpty .p0 (.message (dat 1 0))) = false :=
  by decide

theorem test_wellFormed_refuses_other_of_known_type : wellFormed cfg (.rxOther .p0 (dat 2 0)) = false := by decide

theorem test_wellFormed_refuses_identityReq_of_ack :
    wellFormed cfg (.vdmDiscoverIdentityReq .p0 (dat 15 0x8041)) = false :=
  by decide

theorem test_wellFormed_refuses_identityAck_of_req :
    wellFormed cfg (.vdmDiscoverIdentityAck .p0 (dat 15 0x8001)) = false :=
  by decide

theorem test_wellFormed_refuses_vdmOther_of_req : wellFormed cfg (.vdmOther .p0 (dat 15 0x8001)) = false := by decide

theorem test_wellFormed_refuses_vdmOther_of_request_message :
    wellFormed cfg (.vdmOther .p0 (dat 2 5)) = false :=
  by decide

/-! ## Decoding: format BYTE, each byte and mode as R92 and R93 give them -/

theorem test_decode_pass : decode cfg (.byte 0 false 0x41) = .ok (.pass .p0 0x41) := by decide

theorem test_decode_escArm : decode cfg (.byte 0 false 0x1F) = .ok (.escArm .p0) := by decide

theorem test_decode_escLiteral : decode cfg (.byte 0 true 0x1F) = .ok (.escLiteral .p0) := by decide

theorem test_decode_cmdRebootTarget : decode cfg (.byte 0 true 0x21) = .ok (.cmdRebootTarget .p0) := by decide

theorem test_decode_cmdSelfReset : decode cfg (.byte 0 true 0x12) = .ok (.cmdSelfReset .p0) := by decide

theorem test_decode_cmdFwUpdate : decode cfg (.byte 0 true 0x1E) = .ok (.cmdFwUpdate .p0) := by decide

theorem test_decode_cmdForceDisconnect : decode cfg (.byte 0 true 0x18) = .ok (.cmdForceDisconnect .p0) := by decide

theorem test_decode_cmdToggleVerbose : decode cfg (.byte 0 true 0x04) = .ok (.cmdToggleVerbose .p0) := by decide

theorem test_decode_cmdDebugProbe : decode cfg (.byte 0 true 0x0D) = .ok (.cmdDebugProbe .p0) := by decide

theorem test_decode_cmdRoute1 : decode cfg (.byte 0 true 0x31) = .ok (.cmdRoute1 .p0) := by decide

theorem test_decode_cmdRoute2 : decode cfg (.byte 0 true 0x32) = .ok (.cmdRoute2 .p0) := by decide

theorem test_decode_cmdHelp : decode cfg (.byte 0 true 0x3F) = .ok (.cmdHelp .p0) := by decide

theorem test_decode_cmdDrop : decode cfg (.byte 0 true 0x41) = .ok (.cmdDrop .p0 0x41) := by decide

/-! ## Decoding: formats EVT, MSG, VDM, CALL and PROC -/

theorem test_decode_ev_vbusGood : decode cfg (.evt 1 .vbusGood) = .ok (.evVbusGood .p1) := by decide

theorem test_decode_ev_hardReset : decode cfg (.evt 1 .hardReset) = .ok (.evHardReset .p1) := by decide

theorem test_decode_ev_txSuccess : decode cfg (.evt 1 .txSuccess) = .ok (.evTxSuccess .p1) := by decide

theorem test_decode_ev_msgRx : decode cfg (.evt 1 .msgRx) = .ok (.evMsgRx .p1) := by decide

/-- All four bits of the test parameters set, one other bit each ignored (R95, R178). -/
theorem test_decodeStatus_all_in_order :
    decodeStatus cfg ⟨0x85, 0x01, 0⟩ = [.vbusGood, .hardReset, .txSuccess, .msgRx] :=
  by decide

theorem test_decodeStatus_other_bits_ignored : decodeStatus cfg ⟨0x7A, 0xFE, 0xFF⟩ = [] := by decide

/-- V-MSG records with the default MSGCODE (R98, R99). -/
theorem test_decode_rxSourceCap :
    decode cfg (.msg 0 (.message ⟨1, 1, .sink, .ufp, 2, [5]⟩)) = .ok (.rxSourceCap .p0 (dat 1 5)) :=
  by decide

theorem test_decode_rxRequest :
    decode cfg (.msg 0 (.message ⟨2, 1, .sink, .ufp, 2, [5]⟩)) = .ok (.rxRequest .p0 (dat 2 5)) :=
  by decide

theorem test_decode_rxVdm :
    decode cfg (.msg 0 (.message ⟨15, 1, .sink, .ufp, 2, [0x8001]⟩)) = .ok (.rxVdm .p0 (dat 15 0x8001)) :=
  by decide

theorem test_decode_rxPrSwap :
    decode cfg (.msg 0 (.message ⟨10, 0, .sink, .ufp, 2, []⟩)) = .ok (.rxPrSwap .p0 (ctl 10)) :=
  by decide

theorem test_decode_rxDrSwap :
    decode cfg (.msg 0 (.message ⟨9, 0, .sink, .ufp, 2, []⟩)) = .ok (.rxDrSwap .p0 (ctl 9)) :=
  by decide

theorem test_decode_rxGetSinkCap :
    decode cfg (.msg 0 (.message ⟨8, 0, .sink, .ufp, 2, []⟩)) = .ok (.rxGetSinkCap .p0 (ctl 8)) :=
  by decide

theorem test_decode_rxEmpty_goodCrc :
    decode cfg (.msg 0 (.message ⟨1, 0, .sink, .ufp, 2, []⟩)) = .ok (.rxEmpty .p0 (.message (ctl 1))) :=
  by decide

theorem test_decode_rxOther_accept :
    decode cfg (.msg 0 (.message ⟨3, 0, .sink, .ufp, 2, []⟩)) = .ok (.rxOther .p0 (ctl 3)) :=
  by decide

theorem test_decode_rxOther_sinkCap :
    decode cfg (.msg 0 (.message ⟨4, 1, .sink, .ufp, 2, [5]⟩)) = .ok (.rxOther .p0 (dat 4 5)) :=
  by decide

theorem test_decode_rxEmpty_garbage : decode cfg (.msg 0 .garbage) = .ok (.rxEmpty .p0 .garbage) := by decide

theorem test_decode_vdmDiscoverIdentityReq :
    decode cfg (.vdm 0 ⟨15, 1, .sink, .ufp, 2, [0x8001]⟩) = .ok (.vdmDiscoverIdentityReq .p0 (dat 15 0x8001)) :=
  by decide

theorem test_decode_vdmDiscoverIdentityAck :
    decode cfg (.vdm 0 ⟨15, 1, .sink, .ufp, 2, [0x8041]⟩) = .ok (.vdmDiscoverIdentityAck .p0 (dat 15 0x8041)) :=
  by decide

theorem test_decode_vdmOther :
    decode cfg (.vdm 0 ⟨15, 1, .sink, .ufp, 2, [0x8002]⟩) = .ok (.vdmOther .p0 (dat 15 0x8002)) :=
  by decide

theorem test_decode_setup : decode cfg (.call (.setup 1)) = .ok (.setup .p1) := by decide

theorem test_decode_irqHandler : decode cfg (.call .chipIrq) = .ok .irqHandler := by decide

theorem test_decode_uartRxIrq : decode cfg (.call (.uartByte 1 0x68)) = .ok (.uartRxIrq .p1 0x68) := by decide

theorem test_decode_breakBegin : decode cfg (.call (.breakBegin 0 9)) = .ok (.breakBegin .p0 9) := by decide

theorem test_decode_breakEnd : decode cfg (.call (.breakEnd 0 9)) = .ok (.breakEnd .p0 9) := by decide

theorem test_decode_deviceReset :
    decode cfg (.call (.deviceReset .watchdog)) = .ok (.deviceReset .watchdog) :=
  by decide

theorem test_decode_port_procedures :
    [PortProc.tick, PortProc.pollDisconnected, PortProc.onAttach, PortProc.tickVbusOn, PortProc.tickReady, PortProc.debounce, PortProc.onTxComplete, PortProc.disconnect, PortProc.vbusOff, PortProc.txSourceCap, PortProc.txRequest, PortProc.txAccept, PortProc.txReject].map (fun f => decode cfg (.procPort f 1)) =
    [.ok (.tick .p1), .ok (.pollDisconnected .p1), .ok (.onAttach .p1), .ok (.tickVbusOn .p1), .ok (.tickReady .p1), .ok (.debounce .p1), .ok (.onTxComplete .p1), .ok (.disconnect .p1), .ok (.vbusOff .p1), .ok (.txSourceCap .p1), .ok (.txRequest .p1), .ok (.txAccept .p1), .ok (.txReject .p1)] :=
  by decide

theorem test_decode_port_procedures_2 :
    [PortProc.txPsRdy, PortProc.txSinkCap, PortProc.txProbe, PortProc.txIdentityAck, PortProc.txVdmReboot, PortProc.txVdmDfuHold, PortProc.txVdmPdReset, PortProc.txVdmSerialRoute, PortProc.service, PortProc.rearm, PortProc.muxPump, PortProc.ringGet, PortProc.drainToHost].map (fun f => decode cfg (.procPort f 1)) =
    [.ok (.txPsRdy .p1), .ok (.txSinkCap .p1), .ok (.txProbe .p1), .ok (.txIdentityAck .p1), .ok (.txVdmReboot .p1), .ok (.txVdmDfuHold .p1), .ok (.txVdmPdReset .p1), .ok (.txVdmSerialRoute .p1), .ok (.service .p1), .ok (.rearm .p1), .ok (.muxPump .p1), .ok (.ringGet .p1), .ok (.drainToHost .p1)] :=
  by decide

theorem test_decode_onMessage : decode cfg (.procOnMessage 0 .garbage) = .ok (.onMessage .p0 .garbage) := by decide

theorem test_decode_ringPut : decode cfg (.procRingPut 1 7) = .ok (.ringPut .p1 7) := by decide

theorem test_decode_device_procedures :
    [DeviceProc.mainEntry, .runPass, .transportService, .idleWait].map (fun f => decode cfg (.procDevice f)) =
    [.ok .mainEntry, .ok .runPass, .ok .transportService, .ok .idleWait] :=
  by decide

theorem test_decode_refuses_third_port : decode cfg (.byte 2 false 0x41) = .error .noSuchPort := by decide

theorem test_decode_refuses_wrong_object_count :
    decode cfg (.msg 0 (.message ⟨2, 2, .sink, .ufp, 2, [5]⟩)) = .error .malformedMessage :=
  by decide

theorem test_decode_refuses_eight_objects :
    decode cfg (.msg 0 (.message ⟨2, 8, .sink, .ufp, 2, [1, 2, 3, 4, 5, 6, 7, 8]⟩)) = .error .malformedMessage :=
  by decide

theorem test_decode_refuses_vdm_of_request :
    decode cfg (.vdm 0 ⟨2, 1, .sink, .ufp, 2, [5]⟩) = .error .notVendorDefined :=
  by decide

/-- Rows of spec/opcode_table.json (R111): the mode bit stands beside the byte, and the row with mask 0x00 comes last. -/
theorem test_byteRow_follows_table :
    [(false, 0x1F), (true, 0x1F), (false, 0x21), (true, 0x21), (true, 0x41)].map (fun x : Bool × Byte => byteRow x.1 x.2) =
    [some ⟨"ESC_ARM", .byte false 0x1F 0xFF⟩, some ⟨"ESC_LITERAL", .byte true 0x1F 0xFF⟩, some ⟨"PASS", .byte false 0 0⟩,
      some ⟨"CMD_REBOOT_TARGET", .byte true 0x21 0xFF⟩, some ⟨"CMD_DROP", .byte true 0 0⟩] :=
  by rfl

theorem test_word_escape_unit : decodeTableWord 16 0x321F = some (.cmdRoute2 .p0) := by decide

/-- A first byte other than 0x1F is the whole unit, what follows it is dropped (assumption log 21). -/
theorem test_word_prefix_is_data :
    decodeTableWord 8 0x0D = some (.cmdDebugProbe .p0) ∧ decodeTableWord 16 0x000D = some (.cmdDebugProbe .p0) ∧
    decodeTableWord 16 0x3F41 = some (.pass .p0 0x41) :=
  by decide

/-! ## Policy engine vectors -/

theorem test_V_POL_1_setup_present :
    (run (.setup .p0) (fresh 0x91)).map (fun t => (t.regs .p0, t.out .p0, (t.shared .p0).irqEn)) =
    some (setUpRegs cfg, setUpOut cfg, true) :=
  by decide

/-- R281: an active line runs no handler before `SETUP` has returned. -/
theorem test_setup_with_active_line :
    (run (.setup .p0) (withEnv (fresh 0x91) fun e => { e with line := true })).map (fun t => (t.shared .p0, t.wake, irqReady t .p0)) =
    some (⟨false, true, emptyRing 5⟩, false, true) :=
  by decide

theorem test_V_POL_2_setup_absent :
    (run (.setup .p0) (fresh 0x11)).map (fun t => ((t.regs .p0).present, (t.shared .p0).irqEn, (t.out .p0).vbus, t.trace.getLast?)) =
    some (false, false, .released, some (.log .p0 (.absent .badId))) :=
  by decide

theorem test_V_POL_3_tick_polls_and_sleeps :
    (run (.tick .p0) base).map (fun t => ((t.regs .p0).ps, t.trace)) = some (.disconnected, [.delay .p0 (.pollSleep 200)]) :=
  by decide

theorem test_V_POL_4_pollDisconnected_below_threshold :
    (run (.pollDisconnected .p0) (withCc base 1 1)).map (fun t => ((t.regs .p0).ps, t.trace)) =
    some (.disconnected, [.delay .p0 (.pollSleep 200)]) :=
  by decide

/-- The poll sees the attach level, the re-read does not. -/
theorem test_V_POL_5_false_attach :
    (run (.tick .p0) ((withCc base 2 0).setSched [[], [.cc .p0 0 0]])).map (fun t => ((t.regs .p0).ps, t.trace)) =
    some (.disconnected, []) :=
  by decide

theorem test_V_POL_6_tick_attaches :
    (run (.tick .p0) ((withCc base 0 2).setSched [[], [.cc .p0 0 3]])).map (fun t => ((t.regs .p0).ps, (t.regs .p0).pol, (t.out .p0).vconn,
    (t.out .p0).vbus, sent t)) = some (.dfpVbusOn, .cc2, false, .on, [.probe]) :=
  by decide

theorem test_V_POL_7_polarity_and_vconn :
    [(2, 2), (3, 2), (2, 3), (2, 0), (0, 2), (1, 2), (2, 1), (3, 3)].map (fun cc => (run (.onAttach .p0) (withCc base cc.1 cc.2)).map
    (fun t => ((t.regs .p0).pol, (t.out .p0).vconn))) = [some (.cc1, true), some (.cc1, true), some (.cc2, true), some (.cc1, false),
    some (.cc2, false), some (.cc2, true), some (.cc1, true), some (.cc1, true)] :=
  by decide

theorem test_V_POL_9_retransmission :
    [36, 37].map (fun n => (run (.tickVbusOn .p0) (withRegs fun r => { r with ps := .dfpVbusOn, sct := n })).map
    (fun t => ((t.regs .p0).sct, sent t))) = [some (37, []), some (0, [.sourceCap, .probe])] :=
  by decide

theorem test_V_POL_9b_retransmit_then_detach :
    (run (.tick .p0) (withRegs fun r => { r with ps := .dfpVbusOn, sct := 37, deb := 5 })).map
    (fun t => ((t.regs .p0).ps, (t.regs .p0).sct, (t.regs .p0).deb, sent t)) = some (.disconnected, 0, 0, [.sourceCap, .probe]) :=
  by decide

theorem test_V_POL_10_11_debounce :
    [4, 5].map (fun n => (run (.debounce .p0) (withCc (withRegs fun r => { r with ps := .idle, deb := n }) 1 0)).map
    (fun t => ((t.regs .p0).ps, (t.regs .p0).deb))) = [some (.idle, 5), some (.disconnected, 0)] :=
  by decide

theorem test_V_POL_12_good_reading_clears :
    (run (.debounce .p0) (withCc (withRegs fun r => { r with ps := .dfpAccept, deb := 5 }) 0 2)).map (fun t => ((t.regs .p0).ps, (t.regs .p0).deb)) =
    some (.dfpAccept, 0) :=
  by decide

theorem test_V_POL_13_ready_tick :
    (run (.tickReady .p0) (inState .ready)).map (fun t => (t.regs .p0).ps) = some .idle :=
  by decide

theorem test_V_POL_14_disconnect :
    (run (.disconnect .p0) (withRegs fun r => { r with ps := .idle, deb := 3, sct := 9, pol := .cc2, route := .sbu })).map
    (fun t => (t.regs .p0, (t.out .p0).vbus, (t.out .p0).ccRole)) =
    some ({ setUpRegs cfg with pol := .cc2, route := .sbu }, .released, .srcPlain) :=
  by decide

theorem test_V_POL_15_16_17_onTxComplete :
    [PolicyState.dfpVbusOn, .dfpAccept, .disconnected, .connected, .dfpConnected, .idle, .ready].map (fun x =>
    (run (.onTxComplete .p0) (inState x)).map (fun t => ((t.regs .p0).ps, sent t))) =
    [some (.dfpConnected, [.vdmSerialRoute .primaryUsb]), some (.idle, [.psRdy]), some (.disconnected, []), some (.connected, []),
      some (.dfpConnected, []), some (.idle, []), some (.ready, [])] :=
  by decide

theorem test_V_POL_18_vbusOff :
    (run (.vbusOff .p0) base).map State.trace =
    some [.out .p0 (.vbus .offDriven), .delay .p0 .vbusSettle, .out .p0 (.vbus .released)] :=
  by decide

/-! ## Message and transmission vectors -/

theorem test_V_MSG_answers :
    [dat 1 5, dat 2 5, ctl 10, ctl 9, ctl 8, ctl 1, dat 15 0x8001, dat 15 0x8041].map (fun m =>
    (run (.onMessage .p0 (.message m)) (inState .dfpConnected)).map (fun t => ((t.regs .p0).ps, sent t))) =
    [some (.dfpConnected, [.request]), some (.dfpAccept, [.accept]), some (.dfpConnected, [.reject]), some (.dfpConnected, [.reject]),
      some (.ready, [.sinkCap]), some (.dfpConnected, []), some (.ready, [.identityAck]), some (.dfpConnected, [])] :=
  by decide

theorem test_V_MSG_8_other_logged :
    (run (.rxOther .p0 (ctl 3)) base).map State.trace =
    some [.raised (.protocolViolationMsg .p0 (ctl 3)), .log .p0 (.unhandledMsg (ctl 3))] :=
  by decide

theorem test_V_MSG_11_vdmOther_logged :
    (run (.vdmOther .p0 (dat 15 7)) base).map State.trace =
    some [.raised (.protocolViolationVdm .p0 (dat 15 7)), .log .p0 (.unhandledVdm (dat 15 7))] :=
  by decide

theorem test_V_TX_1_accept_header :
    (run (.txAccept .p0) base).map State.trace = some [.tx .p0 .accept ⟨3, .source, .dfp, 1, Objs.clip []⟩] :=
  by decide

theorem test_V_TX_2_types :
    [Instr.txSourceCap .p0, .txRequest .p0, .txSinkCap .p0].map (fun i => (run i base).map State.trace) =
    [some [.tx .p0 .sourceCap ⟨1, .source, .dfp, 1, Objs.clip [10]⟩], some [.tx .p0 .request ⟨2, .source, .dfp, 1, Objs.clip [11]⟩],
      some [.tx .p0 .sinkCap ⟨4, .source, .dfp, 1, Objs.clip [12]⟩]] :=
  by decide

theorem test_V_TX_3_4_5_routing :
    [(Route.sbu, Polarity.cc2), (.sbu, .cc1), (.altUsb, .cc2)].map (fun x => (run (.txVdmSerialRoute .p0)
    (withRegs fun r => { r with route := x.1, pol := x.2 })).map (fun t => ((t.out .p0).laneSwap, (t.out .p0).srcSel, sent t))) =
    [some (true, .sbuPins, [.vdmSerialRoute .sbu]), some (false, .sbuPins, [.vdmSerialRoute .sbu]),
      some (false, .usbPins, [.vdmSerialRoute .altUsb])] :=
  by decide

/-- R164 and R51 I-6: one interrupt point for the transmission, one for the two outputs; the third entry is not played. -/
theorem test_routing_outputs_change_at_once :
    (run (.txVdmSerialRoute .p0) ((withRegs fun r => { r with route := .sbu, pol := .cc2 }).setSched [[], [], [.cc .p0 2 0]])).map
      (fun t => ((t.out .p0).laneSwap, (t.out .p0).srcSel, (t.env .p0).cc1, t.sched)) =
    some (true, .sbuPins, 0, [[.cc .p0 2 0]]) :=
  by decide

theorem test_V_TX_6_actions :
    [Instr.txVdmReboot .p0, .txVdmPdReset .p0, .txVdmDfuHold .p0].map (fun i => (run i base).map State.trace) =
    [some [.tx .p0 .vdmReboot ⟨15, .source, .dfp, 1, Objs.clip [20, 1]⟩], some [.tx .p0 .vdmPdReset ⟨15, .source, .dfp, 1, Objs.clip [20, 3]⟩],
      some [.tx .p0 .vdmDfuHold ⟨15, .source, .dfp, 1, Objs.clip [20, 2]⟩]] :=
  by decide

/-! ## Event dispatcher vectors -/

theorem test_V_EVT_1_irq_marks_and_masks :
    (run .irqHandler (base.updEnv .p1 fun e => { e with line := true })).map (fun t => ((t.shared .p1).pending, (t.shared .p1).irqEn)) =
    some (true, false) :=
  by decide

theorem test_V_EVT_2_masked_line :
    run .irqHandler ((base.updEnv .p1 fun e => { e with line := true }).updShared .p1 fun x => { x with irqEn := false }) =
    some ((base.updEnv .p1 fun e => { e with line := true }).updShared .p1 fun x => { x with irqEn := false }) :=
  by decide

theorem test_V_EVT_4_5_vbusGood :
    [true, false].map (fun v => (run (.evVbusGood .p0) (withEnv (inState .idle) fun e => { e with vbusPresent := v })).map
    (fun t => ((t.regs .p0).ps, sent t))) = [some (.idle, [.sourceCap, .probe]), some (.disconnected, [])] :=
  by decide

theorem test_V_EVT_6_hard_reset_reattaches :
    (run (.service .p0) (withCc (withEnv (inState .dfpConnected) fun e => { e with tcpc := [(0x3E, 0x01)] }) 2 0)).map
    (fun t => ((t.regs .p0).ps, (t.out .p0).vbus, sent t, (t.env .p0).tcpc)) = some (.dfpVbusOn, .on, [.probe], []) :=
  by decide

theorem test_V_EVT_7_all_events_in_order :
    (run (.service .p0) (withEnv (inState .dfpAccept) fun e => { e with
    tcpc := [(0x3E, 0x85), (0x3F, 0x01)], vbusPresent := true, rx := [.message (dat 1 5)] })).map
    (fun t => ((t.regs .p0).ps, sent t, (t.env .p0).rx)) = some (.disconnected, [.sourceCap, .probe, .request], []) :=
  by decide +kernel

theorem test_V_EVT_9_drain :
    (run (.evMsgRx .p0) (withEnv (inState .dfpConnected) fun e => { e with
    rx := [.garbage, .message (dat 1 5), .message (ctl 3), .message (dat 2 5)] })).map
    (fun t => ((t.regs .p0).ps, sent t, (t.env .p0).rx)) = some (.dfpAccept, [.request, .accept], []) :=
  by decide

theorem test_V_EVT_11_no_event_no_drain :
    (run (.service .p0) (withCc (withEnv (inState .idle) fun e => { e with rx := [.message (dat 2 5)] }) 2 0)).map
    (fun t => ((t.regs .p0).ps, (t.env .p0).rx.length, (t.shared .p0).irqEn)) = some (.idle, 1, true) :=
  by decide

/-! ## Multiplexer and ring vectors -/

theorem test_V_MUX_1_bytes_pass :
    (run (.muxPump .p0) (withEnv (inState .idle) fun e => { e with host := [0x41, 0x00, 0xFF, 0x0D, 0x0A] })).map
    (fun t => (uartStream .p0 t.trace, (t.regs .p0).esc)) = some ([0x41, 0x00, 0xFF, 0x0D, 0x0A], false) :=
  by decide

theorem test_V_MUX_4_three_escapes :
    (run (.muxPump .p0) (withEnv (inState .idle) fun e => { e with host := [0x1F, 0x1F, 0x1F] })).map
    (fun t => (uartStream .p0 t.trace, (t.regs .p0).esc)) = some ([0x1F], true) :=
  by decide

theorem test_V_MUX_6_reboot :
    (run (.muxPump .p0) (withEnv (inState .idle) fun e => { e with host := [0x1F, 0x21] })).map
    (fun t => (sent t, uartStream .p0 t.trace)) = some ([.vdmReboot], []) :=
  by decide

theorem test_V_MUX_7_self_reset :
    (run (.muxPump .p0) (withEnv (inState .idle) fun e => { e with host := [0x1F, 0x12] })).map
    (fun t => (t.wdogArmed, t.halt)) = some (true, .running) :=
  by decide

theorem test_V_MUX_8_fw_update :
    (run (.muxPump .p0) (withEnv (inState .idle) fun e => { e with host := [0x1F, 0x1E, 0x41] })).map
    (fun t => (t.halt, (t.env .p0).host, uartStream .p0 t.trace)) = some (.fwUpdate, [0x41], []) :=
  by decide

theorem test_V_MUX_9_force_disconnect :
    (run (.muxPump .p0) (withEnv (inState .idle) fun e => { e with host := [0x1F, 0x18] })).map
    (fun t => ((t.shared .p0).pending, (t.regs .p0).ps, (t.regs .p0).esc)) = some (true, .disconnected, false) :=
  by decide

/-- The number of `DIAG` lines of the port made verbose is free, so the operation is computed by its laws. -/
theorem test_V_MUX_10_toggle_verbose :
    ∃ t, exec (.cmdToggleVerbose .p0) armed = .next t ∧ (t.regs .p0).verbose = true ∧ (t.regs .p0).esc = false := by
  have h : HostTakes .p0 (toggleVerbose .p0 (diag .p0 (disarmEscape .p0 armed))) := ⟨rfl, rfl⟩
  have e : ((cmdToggleVerbose .p0 armed).regs .p0) = (toggleVerbose .p0 (diag .p0 (disarmEscape .p0 armed))).regs .p0 :=
    diag_regs _ _ _
  exact ⟨_, onPort_live (p := .p0) rfl (cmdToggleVerbose .p0) (hostTakes_diag h h).1, by rw [e]; rfl, by rw [e]; rfl⟩

theorem test_V_MUX_12_help :
    (run (.muxPump .p0) (withEnv (inState .idle) fun e => { e with host := [0x1F, 0x3F] })).map
    (fun t => t.trace) = some [.log .p0 (.help [(.p0, true), (.p1, true)])] :=
  by decide

theorem test_V_MUX_14_route_2 :
    (run (.muxPump .p0) (withEnv (inState .idle) fun e => { e with host := [0x1F, 0x32] })).map
    (fun t => ((t.regs .p0).route, sent t, (t.out .p0).srcSel)) = some (.sbu, [.vdmPdReset], .usbPins) :=
  by decide

theorem test_V_MUX_16_drop_then_pass :
    (run (.muxPump .p0) (withEnv (inState .idle) fun e => { e with host := [0x1F, 0x41, 0x41] })).map
    (fun t => uartStream .p0 t.trace) = some [0x41] :=
  by decide

theorem test_V_MUX_20_break :
    [Instr.breakBegin .p0 5, .breakEnd .p0 5].map (fun i => (run i base).map (fun t => (t.out .p0).uartBreak)) = [some true, some false] :=
  by decide

theorem test_V_RING_2_overflow :
    [1, 2, 3, 4, 5].foldl (fun x b => ringPush 5 b x) (emptyRing 5) = ⟨[1, 2, 3, 4, 5], 1, 0⟩ ∧
    ringContents 5 ⟨[1, 2, 3, 4, 5], 1, 0⟩ = [2, 3, 4, 5] :=
  by decide

theorem test_V_RING_1_drain :
    (run (.drainToHost .p0) (base.updShared .p0 fun x => { x with ring := ⟨[0x68, 0x69, 0, 0, 0], 0, 2⟩ })).map
    (fun t => (t.trace, (t.shared .p0).ring)) = some ([.host .p0 0x68, .host .p0 0x69], ⟨[0x68, 0x69, 0, 0, 0], 2, 2⟩) :=
  by decide

theorem test_V_RING_4_get_on_empty :
    (run (.ringGet .p0) base).map (fun t => (t.ret, (t.shared .p0).ring)) = some (none, emptyRing 5) :=
  by decide

theorem test_uartRxIrq_puts_and_wakes :
    (run (.uartRxIrq .p0 0x68) base).map (fun t => ((t.shared .p0).ring, t.wake)) = some (⟨[0x68, 0, 0, 0, 0], 0, 1⟩, true) :=
  by decide

/-- Back-pressure (R48(e), R67): `MAIN` waits, the environment goes on, and the byte is sent once the host takes it. -/
theorem test_hostSend_waits_until_taken :
    (run (.drainToHost .p0) (deaf.setSched [[], [], [.cc .p0 2 0], [.takes .p0 true]])).map (fun t => (t.trace, (t.env .p0).cc1, t.sched)) =
    some ([.host .p0 0x68], 2, []) :=
  by decide

/-- The channel drops while `MAIN` waits: the call returns and the byte is lost (R67, R229). -/
theorem test_hostSend_returns_on_drop :
    (run (.drainToHost .p0) (deaf.setSched [[], [], [.connect .p0 false]])).map (fun t => (t.trace, t.stalled)) = some ([], none) :=
  by decide

/-- A host that never reads: `MAIN` is stuck (R226(c), R295, 93 U10), and so is a pass. -/
theorem test_hostSend_stuck :
    exec (.drainToHost .p0) deaf = .fault (.hostSendStalled .p0) ∧ exec .runPass deaf = .fault (.hostSendStalled .p0) :=
  ⟨rfl, rfl⟩

/-- Both hosts deaf: `MAIN` is stuck in the send of port 0, and port 1 is not reached (R295). -/
theorem test_first_stall_counts :
    exec .runPass bothDeaf = .fault (.hostSendStalled .p0) ∧
    exec .mainEntry ((fresh 0).updEnv .p0 (fun e => { e with takes := false }) |>.updEnv .p1 fun e => { e with takes := false }) =
      .fault (.hostSendStalled .p0) :=
  ⟨rfl, rfl⟩

/-- A line that is cut: what was accepted before the drop is on the channel, the rest is not (R80, R229). -/
theorem test_eventHostBytes_cut :
    eventHostBytes cfg .p0 (.logCut .p0 (.diag [0x61, 0x62]) 2) = [0x30, 0x61] ∧
    eventHostBytes cfg .p0 (.log .p0 (.diag [0x61, 0x62])) = [0x30, 0x61, 0x62, 0x0A, 0x0D] ∧
    eventHostBytes cfg .p0 (.logCut .p0 (.diag [0x0A, 0x62]) 2) = [0x30, 0x0A, 0x0D] ∧
    sendLength cfg (.log .p0 (.diag [0x0A, 0x62])) = 4 :=
  by decide

/-! ## Run loop, refusals, reset -/

theorem test_V_RUN_3_absent_port_not_pumped :
    (run (.muxPump .p1) ((base.updRegs .p1 fun r => { r with present := false }).updEnv .p1 fun e => { e with host := [0x41] })).map
    (fun t => ((t.env .p1).host, t.trace)) = some ([0x41], []) :=
  by decide

theorem test_V_RUN_4_pass_stays_awake :
    (run .runPass (withEnv (inState .idle) fun e => { e with host := [0x1F, 0x18] })).map (fun t => (t.pos, (t.shared .p0).pending)) =
    some (.turn .p0, true) :=
  by decide

theorem test_V_RUN_6_mainEntry :
    (run .mainEntry (fresh 0x91)).map (fun t => (t.pos, (t.regs .p0).present, (t.regs .p1).present)) = some (.turn .p0, true, false) :=
  by decide +kernel

theorem test_transportService_delivers_break :
    (run .transportService (base.setCalls [⟨.p0, true, 3⟩])).map (fun t => ((t.out .p0).uartBreak, t.calls)) = some (true, []) :=
  by decide

theorem test_idleWait_stays_and_wakes :
    (run .idleWait (base.setPos .idle)).map State.pos = some .idle ∧ (run .idleWait ((base.setPos .idle).setWake true)).map State.pos = some (.turn .p0) :=
  by decide

theorem test_setup_twice_is_refused :
    (match exec (.setup .p0) base with | .refused r => some r | .next _ | .fault _ => none) = some .setUpTwice :=
  by decide

theorem test_tick_before_setup_is_refused :
    (match exec (.tick .p0) (fresh 0x91) with | .refused r => some r | .next _ | .fault _ => none) = some .notSetUp :=
  by decide

/-- What the environment does after a device reset comes after it (R227, R265). -/
theorem test_moves_after_reset_stay :
    (next? (step (base.setSched [[.reset .powerOn, .cc .p0 2 0]]))).map (fun t => (t.pos, t.sched, (t.env .p0).cc1)) =
    some (.entry, [[.cc .p0 2 0]], 0) :=
  by decide

theorem test_watchdog_needs_arming :
    (run (.deviceReset .watchdog) base).map State.pos = some (.turn .p0) ∧ (run (.deviceReset .watchdog) (base.setWdogArmed true)).map State.pos = some .entry :=
  by decide

theorem test_step_runs_placed_word :
    (next? (step (base.withFetchWord 16 0x321F))).map (fun t => (t.regs .p0).route) = some .sbu :=
  by decide

/-! ## Witnesses: a concrete state and operands that meet the hypotheses of each statement

Named after the statement; where a statement has clauses, each clause at a boundary value. -/

theorem quiet_of (s : State) (h1 : s.sched = []) (h2 : s.resetReq = none) (h3 : irqReady s .p0 = false)
    (h4 : irqReady s .p1 = false) (h5 : s.stalled = none) (h6 : (s.env .p0).takes = true) (h7 : (s.env .p1).takes = true) :
    Quiet s :=
  ⟨⟨h1, h2, fun p => by cases p <;> assumption⟩, fun p => ⟨h5, by cases p <;> simp [h1, h6, h7, takesAfter]⟩⟩

/-- A host that takes now, with nothing scheduled, does its duty (R229). -/
theorem hostTakes_of (s : State) (p : Port) (h1 : s.sched = []) (h2 : s.stalled = none) (h3 : (s.env p).takes = true) :
    HostTakes p s := ⟨h2, by simp [h1, h3, takesAfter]⟩

theorem base_quiet : Quiet base := quiet_of _ rfl rfl rfl rfl rfl rfl rfl

/-- The premises of most statements about an operation of one port. -/
theorem base_meets : base.live .p0 = true ∧ HostTakes .p0 base ∧ Quiet base := ⟨rfl, hostTakes_of _ _ rfl rfl rfl, base_quiet⟩

/-- A host that pauses, and one that goes away, each do their duty (R229); one that pauses for ever does not (93 U10). -/
theorem test_HostTakes_pauses :
    HostTakes .p0 ((withEnv base fun e => { e with takes := false }).setSched [[], [.takes .p0 true]]) ∧
    HostTakes .p0 ((withEnv base fun e => { e with takes := false }).setSched [[], [.connect .p0 false]]) ∧
    ¬ HostTakes .p0 (withEnv base fun e => { e with takes := false }) :=
  ⟨⟨rfl, rfl⟩, ⟨rfl, rfl⟩, fun h => absurd h.2 (by decide)⟩

theorem test_witness_StepKeepsInvariant :
    Inv base ∧ ∃ t, step base = .next t :=
  ⟨⟨by decide, fun p => by cases p <;> constructor <;> decide⟩, _, rfl⟩

theorem test_witness_StepNeverStops :
    (Started base ∧ ∀ p, HostTakes p base) ∧ Started (fresh 0x91) ∧ (∀ p, HostTakes p (fresh 0x91)) :=
  ⟨⟨⟨fun h => absurd h (by decide), fun _ p => (by cases p <;> rfl)⟩, fun p => by cases p <;> exact hostTakes_of _ _ rfl rfl rfl⟩,
    ⟨fun _ p => (by cases p <;> rfl), fun h => absurd rfl h⟩, fun p => by cases p <;> exact hostTakes_of _ _ rfl rfl rfl⟩

theorem test_witness_DecodeEncodeRoundTrip :
    wellFormed cfg (.pass .p0 0x20) = true ∧ wellFormed cfg (.cmdDrop .p1 0x20) = true ∧
    wellFormed cfg (.rxRequest .p0 (dat 2 5)) = true ∧ wellFormed cfg (.vdmOther .p0 (dat 15 5)) = true :=
  by decide

theorem test_witness_StepRunsSelectedOperation :
    (Quiet (base.setPos .entry) ∧ running base = true) ∧ Quiet (setPending .p0 base) ∧
    ((setPending .p0 base).pos = .turn .p0 ∧ (setPending .p0 base).live .p0 = true ∧ ((setPending .p0 base).shared .p0).pending = true) ∧
    (Quiet base ∧ base.live .p0 = true ∧ (base.shared .p0).pending = false) ∧
    ((withRegs fun r => { r with present := false }).live .p0 = false ∧ Quiet (withRegs fun r => { r with present := false })) ∧
    (Quiet (withEnv (base.setPos (.pump .p0)) fun e => { e with host := [0x1F] })) ∧ Quiet (base.setPos (.pump .p0)) ∧
    Quiet (base.setPos .transport) ∧ Quiet (base.setPos .idleTest) ∧ Quiet (base.setPos .idle) :=
  ⟨⟨quiet_of _ rfl rfl rfl rfl rfl rfl rfl, rfl⟩, quiet_of _ rfl rfl rfl rfl rfl rfl rfl, ⟨rfl, rfl, rfl⟩, ⟨quiet_of _ rfl rfl rfl rfl rfl rfl rfl, rfl, rfl⟩, ⟨rfl, quiet_of _ rfl rfl rfl rfl rfl rfl rfl⟩, quiet_of _ rfl rfl rfl rfl rfl rfl rfl, quiet_of _ rfl rfl rfl rfl rfl rfl rfl, quiet_of _ rfl rfl rfl rfl rfl rfl rfl, quiet_of _ rfl rfl rfl rfl rfl rfl rfl, quiet_of _ rfl rfl rfl rfl rfl rfl rfl⟩

theorem test_witness_PlacedWordRuns :
    decodeTableWord 16 0x3F1F = some (.cmdHelp .p0) ∧ decodeTableWord 8 0x20 = some (.pass .p0 0x20) :=
  by decide

theorem test_witness_PassIsItsSteps :
    DeviceUp base ∧ (∀ p, HostTakes p base) ∧ running base = true ∧ base.pos = .turn .p0 ∧ base.resetReq = none ∧
    NoResetMoves base :=
  ⟨fun p => by cases p <;> rfl, base_quiet.2, rfl, rfl, rfl, fun _ h => by cases h⟩

theorem test_witness_HaltedAndIdleBlocksStay :
    (running (base.setHalt .fwUpdate) = false ∧ (base.setHalt .fwUpdate).resetReq = none ∧ NoResetMoves (base.setHalt .fwUpdate)) ∧
    Still (base.setPos .idle) ∧ running (base.setPos .idle) = true ∧ (base.setPos .idle).wake = false :=
  ⟨⟨rfl, rfl, fun _ h => by cases h⟩, (quiet_of _ rfl rfl rfl rfl rfl rfl rfl).1, rfl, rfl⟩

theorem test_witness_SetupOfPresentPort :
    (Quiet (fresh 0x80) ∧ ((fresh 0x80).regs .p0).setUp = false ∧ passesSetup (fresh 0x80) .p0) ∧
    Quiet (withEnv (fresh 0x80) fun e => { e with line := true }) ∧
    passesSetup (withEnv (fresh 0x80) fun e => { e with line := true }) .p0 :=
  ⟨⟨quiet_of _ rfl rfl rfl rfl rfl rfl rfl, rfl, rfl, by decide⟩, quiet_of _ rfl rfl rfl rfl rfl rfl rfl, rfl, by decide⟩

theorem test_witness_SetupOfAbsentPort :
    (Quiet (fresh 0x7F) ∧ ((fresh 0x7F).regs .p0).setUp = false ∧ ¬ passesSetup (fresh 0x7F) .p0) ∧
    Quiet (withEnv (fresh 0x80) fun e => { e with busHeldLow := true }) ∧
    ¬ passesSetup (withEnv (fresh 0x80) fun e => { e with busHeldLow := true }) .p0 :=
  ⟨⟨quiet_of _ rfl rfl rfl rfl rfl rfl rfl, rfl, fun h => by exact absurd h.2 (by decide)⟩, quiet_of _ rfl rfl rfl rfl rfl rfl rfl, fun h => by exact absurd h.1 (by decide)⟩

theorem test_witness_MainEntrySetsUpBothPorts :
    (∀ p, ((fresh 0x80).regs p).setUp = false) ∧ (∀ p, HostTakes p (fresh 0x80)) ∧ Quiet (fresh 0x80) ∧
    ∀ p, ((fresh 0x80).env p).line = false :=
  ⟨fun p => by cases p <;> rfl, fun p => by cases p <;> exact hostTakes_of _ _ rfl rfl rfl,
    quiet_of _ rfl rfl rfl rfl rfl rfl rfl, fun p => by cases p <;> rfl⟩

theorem test_witness_RefusedAroundSetup :
    (instrPort (.tick .p0) = some .p0 ∧ ((fresh 0).regs .p0).setUp = false ∧ Instr.tick .p0 ≠ .setup .p0) ∧
    (instrPort (.uartRxIrq .p0 1) = some .p0 ∧ Instr.uartRxIrq .p0 1 ≠ .setup .p0) ∧ (base.regs .p0).setUp = true ∧
    exec .runPass (fresh 0) = .refused .notSetUp ∧ exec .mainEntry base = .refused .setUpTwice ∧
    exec (.drainToHost .p0) deaf = .fault (.hostSendStalled .p0) :=
  ⟨⟨rfl, rfl, by decide⟩, ⟨rfl, by decide⟩, rfl, rfl, rfl, rfl⟩

theorem test_witness_AbsentPortIsInert :
    instrPort (.cmdHelp .p0) = some .p0 ∧ ((withRegs fun r => { r with present := false }).regs .p0).setUp = true ∧
    ((withRegs fun r => { r with present := false }).regs .p0).present = false ∧ Instr.cmdHelp .p0 ≠ .setup .p0 :=
  by decide

theorem test_witness_TickStepsThenDebounces :
    ([36, 37].map fun n => (withRegs fun r => { r with ps := .dfpVbusOn, sct := n, deb := 5 }).live .p0) = [true, true] ∧
    Quiet (withRegs fun r => { r with ps := .dfpVbusOn, sct := 36, deb := 5 }) ∧
    Quiet (withRegs fun r => { r with ps := .dfpVbusOn, sct := 37, deb := 5 }) ∧ Quiet (inState .connected) :=
  ⟨rfl, quiet_of _ rfl rfl rfl rfl rfl rfl rfl, quiet_of _ rfl rfl rfl rfl rfl rfl rfl, quiet_of _ rfl rfl rfl rfl rfl rfl rfl⟩

theorem test_witness_AttachAtLevelElseNothing :
    (base.live .p0 = true ∧ (base.regs .p0).ps = .disconnected) ∧ Quiet (withCc base 2 0) ∧ Quiet (withCc base 1 1) ∧
    anyAttach cfg (ccLevels (withCc base 2 0) .p0) = true ∧ anyAttach cfg (ccLevels (withCc base 1 1) .p0) = false :=
  ⟨⟨rfl, rfl⟩, quiet_of _ rfl rfl rfl rfl rfl rfl rfl, quiet_of _ rfl rfl rfl rfl rfl rfl rfl, by decide, by decide⟩

theorem test_witness_AttachInAnyEnvironment :
    ((withCc base 2 0).setSched [[], [.cc .p0 0 3]]).live .p0 = true ∧
    HostTakes .p0 ((withCc base 2 0).setSched [[], [.cc .p0 0 3]]) ∧
    (((withCc base 2 0).setSched [[], [.cc .p0 0 3]]).regs .p0).ps = .disconnected :=
  ⟨rfl, ⟨rfl, rfl⟩, rfl⟩

theorem test_witness_VbusOnOnlyByAttach :
    ∃ t, exec (.tick .p0) (withCc base 2 0) = .next t ∧ ((withCc base 2 0).out .p0).vbus ≠ .on ∧ (t.out .p0).vbus = .on ∧
    ((withCc base 2 0).regs .p0).ps ≠ .dfpVbusOn ∧ (t.regs .p0).ps = .dfpVbusOn ∧ (withCc base 2 0).sched = [] :=
  ⟨_, rfl, by decide, by decide, by decide, by decide, rfl⟩

theorem test_witness_TickVbusOnCountsThenRetransmits :
    ((withRegs fun r => { r with sct := 36 }).live .p0 = true ∧ HostTakes .p0 (withRegs fun r => { r with sct := 36 }) ∧
    Quiet (withRegs fun r => { r with sct := 36 })) ∧ (withRegs fun r => { r with sct := 37 }).live .p0 = true ∧
    HostTakes .p0 (withRegs fun r => { r with sct := 37 }) ∧ Quiet (withRegs fun r => { r with sct := 37 }) :=
  ⟨⟨rfl, hostTakes_of _ _ rfl rfl rfl, quiet_of _ rfl rfl rfl rfl rfl rfl rfl⟩, rfl, hostTakes_of _ _ rfl rfl rfl,
    quiet_of _ rfl rfl rfl rfl rfl rfl rfl⟩

theorem test_witness_DebounceCountsToDetach :
    Quiet (withCc (withRegs fun r => { r with deb := 4 }) 1 1) ∧ Quiet (withCc (withRegs fun r => { r with deb := 5 }) 1 1) ∧
    bothBelow cfg (1, 1) = true ∧ Quiet (withCc (withRegs fun r => { r with deb := 5 }) 2 0) ∧ bothBelow cfg (2, 0) = false ∧
    (withCc (withRegs fun r => { r with deb := 5 }) 2 0).live .p0 = true :=
  ⟨quiet_of _ rfl rfl rfl rfl rfl rfl rfl, quiet_of _ rfl rfl rfl rfl rfl rfl rfl, by decide, quiet_of _ rfl rfl rfl rfl rfl rfl rfl, by decide, rfl⟩

theorem test_witness_TxCompleteAdvances :
    ((inState .dfpVbusOn).live .p0 = true ∧ HostTakes .p0 (inState .dfpVbusOn) ∧ Quiet (inState .dfpVbusOn)) ∧
    ((inState .dfpAccept).live .p0 = true ∧ HostTakes .p0 (inState .dfpAccept) ∧ Quiet (inState .dfpAccept)) ∧
    (inState .idle).live .p0 = true ∧ HostTakes .p0 (inState .idle) ∧ Quiet (inState .idle) :=
  ⟨⟨rfl, hostTakes_of _ _ rfl rfl rfl, quiet_of _ rfl rfl rfl rfl rfl rfl rfl⟩,
    ⟨rfl, hostTakes_of _ _ rfl rfl rfl, quiet_of _ rfl rfl rfl rfl rfl rfl rfl⟩, rfl, hostTakes_of _ _ rfl rfl rfl,
    quiet_of _ rfl rfl rfl rfl rfl rfl rfl⟩

theorem test_witness_TickReadyStepsToIdle : base.live .p0 = true ∧ HostTakes .p0 base ∧ Quiet base := base_meets

theorem test_witness_DisconnectReturnsToRest : base.live .p0 = true ∧ HostTakes .p0 base ∧ Quiet base := base_meets

theorem test_witness_VbusOffDrivesWaitsReleases :
    base.live .p0 = true ∧ HostTakes .p0 base ∧ Quiet base := base_meets

theorem test_witness_OnMessageDispatchesByClass :
    base.live .p0 = true ∧ HostTakes .p0 base ∧ Quiet base := base_meets

theorem test_witness_RxVdmDispatchesBySubCommand :
    base.live .p0 = true ∧ HostTakes .p0 base ∧ Quiet base := base_meets

theorem test_witness_RxRepliesOnly : base.live .p0 = true ∧ HostTakes .p0 base ∧ Quiet base := base_meets

theorem test_witness_RxRepliesAndAdvances : base.live .p0 = true ∧ HostTakes .p0 base ∧ Quiet base := base_meets

theorem test_witness_IgnoredMessages : base.live .p0 = true ∧ HostTakes .p0 base ∧ Quiet base := base_meets

theorem test_witness_UnknownMessagesAreLogged : base.live .p0 = true ∧ HostTakes .p0 base ∧ Quiet base := base_meets

theorem test_witness_FixedTransmissions :
    (base.live .p0 = true ∧ HostTakes .p0 base ∧ Quiet base) ∧ paramsOk base.cfg = true ∧
    (dat 15 0x8041).obj ≠ base.cfg.identityObjs ∧ (⟨15, .source, .dfp, 1, Objs.clip [0x8041, 13]⟩ : Msg).obj = base.cfg.identityObjs :=
  ⟨base_meets, by decide, by decide, by decide⟩

theorem test_witness_SerialRouteSetsRoutingOutputs :
    base.live .p0 = true ∧ HostTakes .p0 base ∧ Quiet base := base_meets

theorem test_witness_ServiceRunsEventsTickRearm :
    base.live .p0 = true ∧ HostTakes .p0 base ∧ Quiet base := base_meets

theorem test_witness_MsgRxDrainsQueue : base.live .p0 = true ∧ HostTakes .p0 base ∧ Quiet base := base_meets

theorem test_witness_RearmArmsLine : base.live .p0 = true ∧ HostTakes .p0 base ∧ Quiet base := base_meets

theorem test_witness_BytesReachUart : base.live .p0 = true ∧ HostTakes .p0 base ∧ Quiet base := base_meets

theorem test_witness_EscapeArmsAndDrops : base.live .p0 = true ∧ HostTakes .p0 base ∧ Quiet base := base_meets

theorem test_witness_CommandsThatTransmit : base.live .p0 = true ∧ HostTakes .p0 base ∧ Quiet base := base_meets

theorem test_witness_OperatorFatalCommands : base.live .p0 = true ∧ HostTakes .p0 base ∧ Quiet base := base_meets

theorem test_witness_ForceDisconnectMarksPending :
    base.live .p0 = true ∧ HostTakes .p0 base ∧ Quiet base := base_meets

theorem test_witness_ToggleVerboseInverts : base.live .p0 = true ∧ HostTakes .p0 base ∧ Quiet base := base_meets

theorem test_witness_HelpListsPorts : base.live .p0 = true ∧ HostTakes .p0 base ∧ Quiet base := base_meets

theorem test_witness_BreakCallsDriveLine : base.live .p0 = true ∧ HostTakes .p0 base ∧ Quiet base := base_meets

theorem test_witness_RingGetReturnsOldest : base.live .p0 = true ∧ HostTakes .p0 base ∧ Quiet base := base_meets

theorem test_witness_UartByteGoesIntoRing : base.live .p0 = true ∧ running base = true := ⟨rfl, rfl⟩

theorem test_witness_IrqHandlerMarksAndMasks :
    (∀ p, irqReady base p = false) ∧ irqReady (withEnv base fun e => { e with line := true }) .p0 = true :=
  ⟨fun p => by cases p <;> rfl, rfl⟩

theorem test_witness_VbusGoodBranchesOnLevel :
    (base.live .p0 = true ∧ Quiet base ∧ (base.env .p0).vbusPresent = false) ∧
    Quiet (withEnv base fun e => { e with vbusPresent := true }) :=
  ⟨⟨rfl, quiet_of _ rfl rfl rfl rfl rfl rfl rfl, rfl⟩, quiet_of _ rfl rfl rfl rfl rfl rfl rfl⟩

theorem test_witness_PumpScansHostBytes :
    ((withEnv base fun e => { e with host := [0x1F, 0x1E, 0x41] }).live .p0 = true ∧
    Quiet (withEnv base fun e => { e with host := [0x1F, 0x1E, 0x41] }) ∧ running base = true) ∧
    scanHalts false [0x1F, 0x1E, 0x41] = true ∧ scanHalts false [0x1E] = false ∧
    (base.shared .p0).ring.wf (ringSlots base.cfg) = true ∧
    scanCommands false [0x21, 0x1F, 0x21, 0x1F, 0x41, 0x1F, 0x1F, 0x1F, 0x1E, 0x21] = [0x21, 0x1E] :=
  ⟨⟨rfl, quiet_of _ rfl rfl rfl rfl rfl rfl rfl, rfl⟩, by decide, by decide, by decide, by decide⟩

theorem test_witness_RingIsBoundedFifo :
    (emptyRing 2).wf (ringSlots { cfg with ringCap := 1 }) = true ∧
    (⟨[1, 2, 3, 4, 5], 1, 0⟩ : Ring).wf (ringSlots cfg) = true ∧ ringContents (ringSlots cfg) (emptyRing 5) = [] ∧
    ringContents (ringSlots cfg) ⟨[1, 2, 3, 4, 5], 1, 0⟩ = 2 :: [3, 4, 5] :=
  by decide

theorem test_witness_DrainSendsRingVerbatim :
    (base.live .p0 = true ∧ (base.shared .p0).ring.wf (ringSlots base.cfg) = true ∧ Quiet base) ∧
    deaf.live .p0 = true ∧ (deaf.shared .p0).ring.wf (ringSlots deaf.cfg) = true ∧ deaf.sched = [] ∧ deaf.resetReq = none ∧
    deaf.stalled = none ∧ (deaf.env .p0).connected = true ∧ (deaf.env .p0).takes = false ∧
    ringContents (ringSlots deaf.cfg) (deaf.shared .p0).ring ≠ [] :=
  ⟨⟨rfl, by decide, base_quiet⟩, rfl, by decide, rfl, rfl, rfl, rfl, rfl, by decide⟩

theorem test_witness_TransportServiceDeliversBreaks :
    (∀ p, HostTakes p (base.setCalls [⟨.p0, true, 3⟩, ⟨.p0, false, 3⟩])) ∧
    Quiet (base.setCalls [⟨.p0, true, 3⟩, ⟨.p0, false, 3⟩]) ∧ base.live .p0 = true ∧
    (withRegs fun r => { r with present := false }).live .p0 = false :=
  ⟨fun p => by cases p <;> exact hostTakes_of _ _ rfl rfl rfl, quiet_of _ rfl rfl rfl rfl rfl rfl rfl, rfl, rfl⟩

theorem test_witness_IdleWaitEndsByInterrupt :
    Quiet base ∧ base.wake = false ∧ Quiet (base.setWake true) :=
  ⟨quiet_of _ rfl rfl rfl rfl rfl rfl rfl, rfl, quiet_of _ rfl rfl rfl rfl rfl rfl rfl⟩

theorem test_witness_DeviceResetLosesBlockState :
    (base.setWdogArmed true).wdogArmed = true ∧ base.wdogArmed = false :=
  ⟨rfl, rfl⟩

theorem test_witness_PortsAreIsolated :
    instrPort (.disconnect .p0) = some .p0 ∧ Port.p1 ≠ .p0 ∧ ∃ t, exec (.disconnect .p0) base = .next t :=
  ⟨rfl, by decide, _, rfl⟩

theorem test_witness_RegisterWriters :
    ∃ t, exec (.cmdRoute2 .p0) base = .next t ∧ (t.regs .p0).route ≠ (base.regs .p0).route :=
  ⟨_, rfl, by decide⟩

theorem test_witness_RegisterWriters_others :
    (∃ t, exec (.onAttach .p0) (withCc base 1 2) = .next t ∧ (t.regs .p0).pol ≠ (base.regs .p0).pol) ∧
    (∃ t, exec (.cmdToggleVerbose .p0) armed = .next t ∧ (t.regs .p0).verbose ≠ (armed.regs .p0).verbose) ∧
    ∃ t, exec (.escArm .p0) base = .next t ∧ (t.regs .p0).esc ≠ (base.regs .p0).esc :=
  ⟨⟨_, rfl, by decide⟩, test_V_MUX_10_toggle_verbose.imp fun _ h => ⟨h.1, by rw [h.2.1]; decide⟩, _, rfl, by decide⟩

theorem test_witness_PendingIsNotLost :
    ∃ t, exec (.service .p0) (setPending .p0 base) = .next t ∧ ((setPending .p0 base).shared .p0).pending = true :=
  ⟨_, rfl, rfl⟩

theorem test_witness_QuietBoundaryFrame :
    (∃ t, exec (.disconnect .p0) base = .next t) ∧ Quiet base ∧ instrPort (.disconnect .p0) = some .p0 ∧
    ∀ p, Instr.disconnect .p0 ∉ [.setup p, .onAttach p, .pollDisconnected p, .tick p, .service p] :=
  ⟨⟨_, rfl⟩, quiet_of _ rfl rfl rfl rfl rfl rfl rfl, rfl, fun p => by cases p <;> decide⟩

theorem test_witness_RegisterReadsBackWrite :
    Memory.wf [(1, 0x91), (0x3E, 1)] = true ∧ writeReg [(1, 0x91), (0x3E, 1)] 0x3E 0 = [(1, 0x91)] :=
  by decide

end Sys2Proof.Tests
end

/-! # The state family: the invariants of R51, isolation of the ports, and who writes what

Every operation of `MAIN` is described once, by what it can do to one port: at the boundary (`BoundaryStep`: flags, ring,
register space) and to the record and the outputs, as a sequence of the writes of `PortWrite`. `exec_mainStep` says so of
every operation; the invariants, the isolation of the ports and the writers of each field are read off it. -/

/-! ## Right after reset -/

namespace Sys2Proof.Machine

theorem portInv_reset (p : Port) : PortInv State.reset p := by
  cases p <;> constructor <;> decide

/-- Settles O2: the parameters by `paramsOk_default`, the ports by evaluation. -/
theorem invariantHoldsAtReset : Obligations.InvariantHoldsAtReset :=
  ⟨⟨paramsOk_default, portInv_reset⟩, fun _ p => by cases p <;> rfl, fun h => absurd rfl h⟩

end Sys2Proof.Machine

/-! ## The guard on the port -/

namespace Sys2Proof.Machine

/-- An operation of one port runs behind the guard of that port, but for its `SETUP` and its UART interrupt, which test
the port themselves (R29, R281). -/
theorem exec_eq_guardPort {i : Instr} {p : Port} (hi : instrPort i = some p) (hs : i ≠ .setup p)
    (hu : ∀ b, i ≠ .uartRxIrq p b) : ∃ k, ∀ s, exec i s = guardPort p k s := by
  cases i with
  | irqHandler | mainEntry | runPass | transportService | idleWait | deviceReset => cases hi
  | setup q => cases hi; exact absurd rfl hs
  | uartRxIrq q b => cases hi; exact absurd rfl (hu b)
  | _ => cases hi; exact ⟨_, fun _ => rfl⟩

/-- A received byte is ignored for a port that is not live (R250, 93 U18). -/
theorem uartReceive_of_not_live {s : State} {p : Port} (h : s.live p = false) (b : Byte) : uartReceive p b s = s := by
  simp [uartReceive, h]

/-- Settles O15: the guard of the port answers the same state, and the UART interrupt ignores the byte. -/
theorem absentPortIsInert : Obligations.AbsentPortIsInert := by
  intro i p s hi hset habs hns
  by_cases hu : ∃ b, i = .uartRxIrq p b
  · obtain ⟨b, rfl⟩ := hu
    have hlive : s.live p = false := by simp [State.live, habs]
    exact congrArg _ (uartReceive_of_not_live hlive b)
  · obtain ⟨k, hk⟩ := exec_eq_guardPort hi hns fun b e => hu ⟨b, e⟩
    rw [hk, guardPort_absent hset habs]

end Sys2Proof.Machine

/-! ## The boundary of one port

What an interrupt point and every primitive can do to the flags, the ring and the register space of a port. -/

namespace Sys2Proof.Machine

/-- What happens to port `q` at the boundary between `s` and `t`, in every environment: the line is armed only on a live
port, the flag set only where the line was armed or the port is live, and ring and register space stay well formed. -/
structure BoundaryStep (q : Port) (s t : State) : Prop where
  cfg : t.cfg = s.cfg
  live : t.live q = s.live q
  irqEn : (t.shared q).irqEn = true → (s.shared q).irqEn = true ∨ s.live q = true
  pending : (t.shared q).pending = true → (s.shared q).pending = true ∨ (s.shared q).irqEn = true ∨ s.live q = true
  ring : (s.shared q).ring.wf (ringSlots s.cfg) = true → (t.shared q).ring.wf (ringSlots s.cfg) = true
  memory : Memory.wf (s.env q).tcpc = true → Memory.wf (t.env q).tcpc = true

section
variable {q : Port} {s t u : State}

theorem boundary_refl (q : Port) (s : State) : BoundaryStep q s s :=
  ⟨rfl, rfl, .inl, .inl, id, id⟩

theorem boundary_trans (h : BoundaryStep q s t) (h' : BoundaryStep q t u) : BoundaryStep q s u where
  cfg := h'.cfg.trans h.cfg
  live := h'.live.trans h.live
  irqEn hu := (h'.irqEn hu).elim h.irqEn fun hl => .inr (h.live ▸ hl)
  pending hu := by
    rcases h'.pending hu with hp | hi | hl
    · exact h.pending hp
    · exact .inr (h.irqEn hi)
    · exact .inr (.inr (h.live ▸ hl))
  ring hs := h.cfg ▸ h'.ring (h.cfg ▸ h.ring hs)
  memory hs := h'.memory (h.memory hs)

/-! ### Updates -/

/-- A state that differs only in what a boundary step does not speak of. -/
theorem boundary_congr (h : BoundaryStep q s t) (hc : u.cfg = t.cfg) (hl : u.live q = t.live q)
    (hs : u.shared q = t.shared q) (he : (u.env q).tcpc = (t.env q).tcpc) : BoundaryStep q s u :=
  ⟨hc.trans h.cfg, hl.trans h.live, hs ▸ h.irqEn, hs ▸ h.pending, hs ▸ h.ring, he ▸ h.memory⟩

theorem boundary_updRegs (h : BoundaryStep q s t) (p : Port) {f : PortRegs → PortRegs}
    (hf : ((f (t.regs p)).setUp && (f (t.regs p)).present) = t.live p) : BoundaryStep q s (t.updRegs p f) := by
  refine boundary_congr h (by simp) ?_ (by simp) (by simp)
  by_cases e : q = p
  · subst e; simpa [State.live] using hf
  · simp [State.live, e]

theorem boundary_updOut (h : BoundaryStep q s t) (p : Port) (f : Outputs → Outputs) : BoundaryStep q s (t.updOut p f) :=
  boundary_congr h (by simp) (by simp [State.live]) (by simp) (by simp)

theorem boundary_updEnv (h : BoundaryStep q s t) (p : Port) {f : EnvPort → EnvPort}
    (hf : ∀ e, Memory.wf e.tcpc = true → Memory.wf (f e).tcpc = true) : BoundaryStep q s (t.updEnv p f) where
  cfg := by simpa using h.cfg
  live := by simpa [State.live] using h.live
  irqEn := by simpa using h.irqEn
  pending := by simpa using h.pending
  ring := by simpa using h.ring
  memory hs := by
    rw [env_updEnv]
    split_ifs
    · exact hf _ (h.memory hs)
    · exact h.memory hs

theorem boundary_setTrace (h : BoundaryStep q s t) (x : List Event) : BoundaryStep q s (t.setTrace x) :=
  boundary_congr h rfl rfl rfl rfl
theorem boundary_setFreeCtr (h : BoundaryStep q s t) (x : Nat) : BoundaryStep q s (t.setFreeCtr x) :=
  boundary_congr h rfl rfl rfl rfl
theorem boundary_setSched (h : BoundaryStep q s t) (x : List (List EnvMove)) : BoundaryStep q s (t.setSched x) :=
  boundary_congr h rfl rfl rfl rfl
theorem boundary_setWake (h : BoundaryStep q s t) (x : Bool) : BoundaryStep q s (t.setWake x) :=
  boundary_congr h rfl rfl rfl rfl

/-- An update of the shared fields, if the line and the flag of a port that is not live go up by it no more than by a
handler, and the ring stays well formed. -/
theorem boundary_updShared (h : BoundaryStep q s t) (p : Port) {f : Shared → Shared}
    (hi : (f (t.shared p)).irqEn = true → (t.shared p).irqEn = true ∨ t.live p = true)
    (hp : (f (t.shared p)).pending = true → (t.shared p).pending = true ∨ t.live p = true)
    (hr : (t.shared p).ring.wf (ringSlots t.cfg) = true → (f (t.shared p)).ring.wf (ringSlots t.cfg) = true) :
    BoundaryStep q s (t.updShared p f) := by
  refine boundary_trans h ?_
  by_cases e : q = p
  · subst e
    exact ⟨by simp, by simp [State.live], by simpa using hi,
      by simpa using fun x => (hp x).imp_right Or.inr, by simpa using hr, by simp⟩
  · exact boundary_congr (boundary_refl q t) (by simp) (by simp [State.live]) (by simp [e]) (by simp)

theorem boundary_setPending (h : BoundaryStep q s t) {p : Port} (hl : t.live p = true) :
    BoundaryStep q s (setPending p t) := boundary_updShared h p .inl (fun _ => .inr hl) id

theorem boundary_clearPending (h : BoundaryStep q s t) (p : Port) : BoundaryStep q s (clearPending p t) :=
  boundary_updShared h p .inl (fun e => nomatch e) id

theorem boundary_armLine (h : BoundaryStep q s t) {p : Port} (hl : t.live p = true) : BoundaryStep q s (armLine p t) :=
  boundary_updShared h p (fun _ => .inr hl) .inl id

theorem boundary_ringPut (h : BoundaryStep q s t) (p : Port) (b : Byte) : BoundaryStep q s (ringPut p b t) :=
  boundary_updShared h p .inl .inl fun hw => wf_ringPush hw b

theorem boundary_ringGet (h : BoundaryStep q s t) (p : Port) : BoundaryStep q s (ringGet p t).2 := by
  simp only [ringGet]; exact boundary_updShared h p .inl .inl wf_ringPop

/-! ### Interrupts and moves -/

theorem boundary_takeChipIrq (h : BoundaryStep q s t) {p : Port} (hr : irqReady t p = true) :
    BoundaryStep q s (takeChipIrq p t) := by
  have hl : t.live p = true := by
    simp only [irqReady, Bool.and_eq_true] at hr
    exact hr.1.1.2
  have hm : BoundaryStep q s (maskLine p (setPending p t)) :=
    boundary_updShared (boundary_setPending h hl) p (by simp) .inl id
  exact boundary_congr hm rfl rfl rfl rfl

theorem boundary_chipIrq (h : BoundaryStep q s t) : BoundaryStep q s (chipIrq t) := by
  unfold chipIrq
  split_ifs with h0 h1 h1
  · refine boundary_takeChipIrq (boundary_setFreeCtr h _) ?_
    show irqReady t _ = true
    cases Config.irqFirst t.freeCtr <;> assumption
  · exact boundary_takeChipIrq h h0
  · exact boundary_takeChipIrq h h1
  · exact h

theorem boundary_takeIrqs (h : BoundaryStep q s t) : BoundaryStep q s (takeIrqs t) := boundary_chipIrq (boundary_chipIrq h)

theorem boundary_uartReceive (h : BoundaryStep q s t) (p : Port) (b : Byte) : BoundaryStep q s (uartReceive p b t) := by
  unfold uartReceive
  split_ifs
  · exact boundary_congr (boundary_ringPut h p b) rfl rfl rfl rfl
  · exact h

theorem boundary_applyMove (h : BoundaryStep q s t) (m : EnvMove) : BoundaryStep q s (applyMove m t) := by
  cases m with
  | latch p x => simp only [applyMove]; exact boundary_updEnv h p fun _ he => wf_latchStatus he _ x
  | chipReg p a v => simp only [applyMove]; exact boundary_updEnv h p fun _ he => wf_writeReg he a v
  | uartByte p b => exact boundary_uartReceive h p b
  | line p _ | cc p _ _ | vbus p _ | busLow p _ | afterReset p _ _ =>
    simp only [applyMove]; exact boundary_updEnv h p fun _ he => he
  | hostBytes p _ | connect p _ | takes p _ =>
    simp only [applyMove, hostActivity]
    refine boundary_setWake (boundary_updEnv h p ?_) true
    exact fun _ he => he
  | breakCall c => exact boundary_congr h rfl rfl rfl rfl
  | rxMsg p r =>
    simp only [applyMove]
    split_ifs
    · exact boundary_updEnv h p fun _ he => he
    · exact h
  | reset c =>
    simp only [applyMove]
    split_ifs
    · exact boundary_congr h rfl rfl rfl rfl
    · exact h

theorem boundary_playMoves (h : BoundaryStep q s t) (ms : List EnvMove) : BoundaryStep q s (playMoves ms t) := by
  induction ms generalizing t with
  | nil => exact h
  | cons m ms ih =>
    unfold playMoves
    split_ifs
    · exact boundary_congr h rfl rfl rfl rfl
    · exact ih (boundary_takeIrqs (boundary_applyMove h m))

theorem boundary_point (h : BoundaryStep q s t) : BoundaryStep q s (point t) := by
  unfold point
  split_ifs
  · exact h
  · split
    · exact boundary_takeIrqs h
    · exact boundary_takeIrqs (boundary_playMoves (boundary_setSched h _) _)

/-! ### Primitives -/

theorem boundary_effect (h : BoundaryStep q s t) {f : State → State} (hf : BoundaryStep q s (f t)) :
    BoundaryStep q s (effect f t) := by
  unfold effect
  split_ifs <;> assumption

theorem boundary_emit (h : BoundaryStep q s t) (e : Event) : BoundaryStep q s (emit e t) :=
  boundary_effect h (boundary_setTrace h _)

theorem boundary_delay (h : BoundaryStep q s t) (p : Port) (d : DelayKind) : BoundaryStep q s (delay p d t) :=
  boundary_emit (boundary_point h) _

theorem boundary_uartPut (h : BoundaryStep q s t) (p : Port) (b : Byte) : BoundaryStep q s (uartPut p b t) :=
  boundary_emit (boundary_point h) _

theorem boundary_outWrite (h : BoundaryStep q s t) (p : Port) (w : OutWrite) : BoundaryStep q s (outWrite p w t) :=
  boundary_emit (boundary_updOut (boundary_point h) p _) _

theorem boundary_outWritePair (h : BoundaryStep q s t) (p : Port) (v w : OutWrite) :
    BoundaryStep q s (outWritePair p v w t) :=
  boundary_emit (boundary_emit (boundary_updOut (boundary_point h) p _) _) _

theorem boundary_tcpcReset (h : BoundaryStep q s t) (p : Port) : BoundaryStep q s (tcpcReset p t) :=
  boundary_emit (boundary_effect (boundary_point h)
    (boundary_updEnv (boundary_point h) p fun _ he => wf_putStatus he _ _)) _

theorem boundary_intStatusReadClear (h : BoundaryStep q s t) (p : Port) :
    BoundaryStep q s (intStatusReadClear p t).2 := by
  simp only [intStatusReadClear]
  refine boundary_effect (boundary_point h) ?_
  exact boundary_updEnv (boundary_point h) p fun _ he => wf_putStatus he _ _

theorem boundary_rxGet (h : BoundaryStep q s t) (p : Port) : BoundaryStep q s (rxGet p t).2 := by
  unfold rxGet
  split_ifs
  · exact h
  · split <;> dsimp only
    · exact h
    · exact boundary_updEnv h p fun _ he => he

theorem boundary_hostTryRecv (h : BoundaryStep q s t) (p : Port) : BoundaryStep q s (hostTryRecv p t).2 := by
  unfold hostTryRecv
  split_ifs
  · exact h
  · split <;> dsimp only
    · exact h
    · exact boundary_updEnv h p fun _ he => he

theorem boundary_sendBytes (h : BoundaryStep q s t) (p : Port) (e : Event) (n : Nat) (ms : List (List EnvMove)) (k : Nat) :
    BoundaryStep q s (sendBytes p e n ms k t) := by
  induction ms generalizing k t with
  | nil =>
    unfold sendBytes
    split_ifs
    · exact boundary_setTrace h _
    · exact boundary_setTrace h _
    · exact boundary_congr h rfl rfl rfl rfl
  | cons m ms ih =>
    unfold sendBytes
    split_ifs
    · exact boundary_setTrace h _
    · exact ih (boundary_point h) _
    · exact boundary_setTrace h _
    · exact ih (boundary_point h) _

theorem boundary_hostSend (h : BoundaryStep q s t) (p : Port) (e : Event) : BoundaryStep q s (hostSend p e t) := by
  unfold hostSend
  dsimp only
  split_ifs
  · exact boundary_point h
  · exact boundary_sendBytes (boundary_point h) _ _ _ _ _

theorem boundary_logLine (h : BoundaryStep q s t) (p : Port) (l : LogBody) : BoundaryStep q s (logLine p l t) := by
  unfold logLine
  split_ifs
  · exact h
  · exact boundary_hostSend h p _

theorem boundary_diagLines (h : BoundaryStep q s t) (p : Port) (ts : List (List Byte)) :
    BoundaryStep q s (ts.foldl (fun s x => logLine p (.diag x) s) t) := by
  induction ts generalizing t with
  | nil => exact h
  | cons x ts ih => exact ih (boundary_logLine h p _)

theorem boundary_diag (h : BoundaryStep q s t) (p : Port) : BoundaryStep q s (diag p t) := by
  unfold diag
  split_ifs
  · exact boundary_diagLines (boundary_setFreeCtr h _) p _
  · exact h

theorem boundary_raise (h : BoundaryStep q s t) (c : Condition) : BoundaryStep q s (raise c t) := by
  cases c with
  | transientNoise p n => exact h
  | hardFailure p c => exact boundary_emit h _
  | operatorFatal c => exact boundary_emit h _
  | absence p c => exact boundary_logLine (boundary_emit h _) p _
  | protocolViolationMsg p m => exact boundary_logLine (boundary_emit h _) p _
  | protocolViolationVdm p m => exact boundary_logLine (boundary_emit h _) p _

theorem boundary_drawRoles (h : BoundaryStep q s t) (p : Port) : BoundaryStep q s (drawRoles p t) := by
  unfold drawRoles
  split
  · exact h
  · exact boundary_setFreeCtr h _

theorem boundary_tx (h : BoundaryStep q s t) (p : Port) (k : TxKind) (c : MsgCode) (o : Objs) :
    BoundaryStep q s (tx p k c o t) := boundary_emit (boundary_drawRoles (boundary_point h) p) _

/-! ### A port that is not live -/

/-- No handler and no primitive arms the line of a port that is not live (R281). -/
theorem boundary_irqEn_false (h : BoundaryStep q s t) (hl : s.live q = false) (hi : (s.shared q).irqEn = false) :
    (t.shared q).irqEn = false := by
  by_contra e
  simpa [hi, hl] using h.irqEn (by simpa using e)

/-- No handler and no primitive marks a port pending that is not live and whose line is not armed (R281). -/
theorem boundary_pending_false (h : BoundaryStep q s t) (hl : s.live q = false) (hi : (s.shared q).irqEn = false)
    (hp : (s.shared q).pending = false) : (t.shared q).pending = false := by
  by_contra e
  simpa [hi, hl, hp] using h.pending (by simpa using e)

end

end Sys2Proof.Machine

/-! ## What an operation writes to the record and the outputs of a port -/

namespace Sys2Proof.Machine

/-- The kinds of writes that operations are told apart by: the fields of R22, R23, R27 and R28 each have their own.
`looseCount` is a counter that counts while the port is disconnected, which no operation of a pass does. -/
inductive WriteKind
  | policy
  | attach
  | route
  | verbose
  | esc
  | looseCount
deriving DecidableEq

/-- One completed write of an operation to the record and the outputs of its port, among the kinds `L`: what stands between
two of these is seen by no other agent, so an output write and the record write that goes with it are one. -/
inductive PortWrite (L : List WriteKind) : PortRegs × Outputs → PortRegs × Outputs → Prop
  | disconnect (h : .policy ∈ L) (r : PortRegs) (o : Outputs) : PortWrite L (r, o) (disconnectedRegs r, disconnectedOut o)
  | enter (h : .policy ∈ L) (r : PortRegs) (o : Outputs) (x : PolicyState) (hd : x ≠ .disconnected) (hc : x ≠ .connected) :
      PortWrite L (r, o) ({ r with ps := x }, o)
  | lowReadings (h : .policy ∈ L) (r : PortRegs) (o : Outputs) (n : Nat) (hn : n ≤ Config.debounceLimit)
      (hd : r.ps = .disconnected → n = 0 ∨ .looseCount ∈ L) : PortWrite L (r, o) ({ r with deb := n }, o)
  | retries (h : .policy ∈ L) (r : PortRegs) (o : Outputs) (n : Nat) (hn : n ≤ Config.srcCapRetry)
      (hd : r.ps = .disconnected → n = 0 ∨ .looseCount ∈ L) : PortWrite L (r, o) ({ r with sct := n }, o)
  | releaseVbus (h : .policy ∈ L) (r : PortRegs) (o : Outputs) : PortWrite L (r, o) (r, { o with vbus := .released })
  | uartBreak (h : .policy ∈ L) (r : PortRegs) (o : Outputs) (b : Bool) : PortWrite L (r, o) (r, { o with uartBreak := b })
  | routing (h : .policy ∈ L) (r : PortRegs) (o : Outputs) :
      PortWrite L (r, o) (r, { o with laneSwap := routeLaneSwap r.route r.pol, srcSel := routeSrcSel r.route })
  | attach (h : .attach ∈ L) (r : PortRegs) (o : Outputs) (cc : Nat × Nat) (hp : r.present = true) :
      PortWrite L (r, o) (attachedRegs cc r, attachedOut cc o)
  | route (h : .route ∈ L) (r : PortRegs) (o : Outputs) (x : Route) : PortWrite L (r, o) ({ r with route := x }, o)
  | verbose (h : .verbose ∈ L) (r : PortRegs) (o : Outputs) (b : Bool) : PortWrite L (r, o) ({ r with verbose := b }, o)
  | esc (h : .esc ∈ L) (r : PortRegs) (o : Outputs) (b : Bool) : PortWrite L (r, o) ({ r with esc := b }, o)

/-! ### Who writes which field -/

section
variable {L : List WriteKind} {x y : PortRegs × Outputs}

theorem portWrite_present (h : PortWrite L x y) : y.1.present = x.1.present := by cases h <;> rfl
theorem portWrite_setUp (h : PortWrite L x y) : y.1.setUp = x.1.setUp := by cases h <;> rfl
theorem portWrite_pol (hL : .attach ∉ L) (h : PortWrite L x y) : y.1.pol = x.1.pol := by
  cases h with
  | attach h => exact absurd h hL
  | _ => rfl
theorem portWrite_route (hL : .route ∉ L) (h : PortWrite L x y) : y.1.route = x.1.route := by
  cases h with
  | route h => exact absurd h hL
  | _ => rfl
theorem portWrite_verbose (hL : .verbose ∉ L) (h : PortWrite L x y) : y.1.verbose = x.1.verbose := by
  cases h with
  | verbose h => exact absurd h hL
  | _ => rfl
theorem portWrite_esc (hL : .esc ∉ L) (h : PortWrite L x y) : y.1.esc = x.1.esc := by
  cases h with
  | esc h => exact absurd h hL
  | _ => rfl
theorem not_portWrite_nil : ¬ PortWrite [] x y := by
  intro h
  cases h <;> contradiction

/-- What no write of the kinds `L` changes, no sequence of them changes. -/
theorem portWrites_keep {α : Type} {f : PortRegs × Outputs → α} (hf : ∀ x y, PortWrite L x y → f y = f x)
    (h : Relation.ReflTransGen (PortWrite L) x y) : f y = f x := by
  induction h with
  | refl => rfl
  | tail _ hw ih => exact (hf _ _ hw).trans ih

theorem portWrites_nil (h : Relation.ReflTransGen (PortWrite []) x y) : y = x :=
  portWrites_keep (f := id) (fun _ _ hw => absurd hw not_portWrite_nil) h

end

/-! ### The invariants of the record and the outputs -/

/-- The invariants of R51 that speak of the record and the outputs of one port only: the fields of the same names of
`PortInv`. -/
structure PolicyInv (x : PortRegs × Outputs) : Prop where
  vbusSettled : x.1.setUp = true → x.2.vbus ≠ .offDriven
  vbusOn : x.1.setUp = true → x.2.vbus = .on → x.1.present = true ∧ x.1.ps ≠ .disconnected
  atRest : (x.1.setUp && x.1.present) = true → x.1.ps = .disconnected →
    x.2.vbus = .released ∧ x.2.vconn = false ∧ x.2.rxEn = false ∧ x.1.deb = 0 ∧ x.1.sct = 0
  counters : (x.1.setUp && x.1.present) = true → x.1.deb ≤ Config.debounceLimit ∧ x.1.sct ≤ Config.srcCapRetry
  laneSwap : (x.1.setUp && x.1.present) = true → x.2.laneSwap = true → x.2.srcSel = .sbuPins
  neverConnected : (x.1.setUp && x.1.present) = true → x.1.ps ≠ .connected

section
variable {L : List WriteKind} {x y : PortRegs × Outputs}

theorem routeSrcSel_of_laneSwap {r : Route} {p : Polarity} (h : routeLaneSwap r p = true) : routeSrcSel r = .sbuPins := by
  simp only [routeLaneSwap, Bool.and_eq_true, beq_iff_eq] at h
  simp [routeSrcSel, h.1]

/-- Every write keeps the invariants, if no counter counts while the port is disconnected. -/
theorem policyInv_portWrite (hL : .looseCount ∉ L) (h : PortWrite L x y) (hx : PolicyInv x) : PolicyInv y := by
  obtain ⟨settled, on, rest, counts, swap, never⟩ := hx
  cases h with
  | disconnect _ r o =>
    exact ⟨by simp [disconnectedOut], by simp [disconnectedOut], by simp [disconnectedOut, disconnectedRegs],
      by simp [disconnectedRegs], swap, by simp [disconnectedRegs]⟩
  | enter _ r o s hd hc =>
    exact ⟨settled, fun hs hv => ⟨(on hs hv).1, hd⟩, fun _ e => absurd e hd, counts, swap, fun _ => hc⟩
  | lowReadings _ r o n hn hd =>
    refine ⟨settled, on, fun hs e => ?_, fun hs => ⟨hn, (counts hs).2⟩, swap, never⟩
    obtain ⟨h1, h2, h3, -, h5⟩ := rest hs e
    exact ⟨h1, h2, h3, (hd e).resolve_right hL, h5⟩
  | retries _ r o n hn hd =>
    refine ⟨settled, on, fun hs e => ?_, fun hs => ⟨(counts hs).1, hn⟩, swap, never⟩
    obtain ⟨h1, h2, h3, h4, -⟩ := rest hs e
    exact ⟨h1, h2, h3, h4, (hd e).resolve_right hL⟩
  | releaseVbus _ r o =>
    exact ⟨by simp, by simp, fun hs e => ⟨rfl, (rest hs e).2⟩, counts, swap, never⟩
  | uartBreak _ r o b => exact ⟨settled, on, rest, counts, swap, never⟩
  | routing _ r o => exact ⟨settled, on, rest, counts, fun _ => routeSrcSel_of_laneSwap, never⟩
  | attach _ r o cc hp =>
    exact ⟨by simp [attachedOut], fun _ _ => ⟨hp, by simp [attachedRegs]⟩, by simp [attachedRegs], counts, swap,
      by simp [attachedRegs]⟩
  | route _ r o a => exact ⟨settled, on, rest, counts, swap, never⟩
  | verbose _ r o b => exact ⟨settled, on, rest, counts, swap, never⟩
  | esc _ r o b => exact ⟨settled, on, rest, counts, swap, never⟩

theorem policyInv_portWrites (hL : .looseCount ∉ L) (h : Relation.ReflTransGen (PortWrite L) x y) (hx : PolicyInv x) :
    PolicyInv y := by
  induction h with
  | refl => exact hx
  | tail _ hw ih => exact policyInv_portWrite hL hw ih

theorem policyInv_of_portInv {s : State} {p : Port} (h : PortInv s p) : PolicyInv (s.regs p, s.out p) :=
  ⟨h.vbusSettled, h.vbusOn, h.atRest, h.counters, h.laneSwap, h.neverConnected⟩

/-- What happens at the boundary keeps the other invariants of a port, if `SETUP` and presence are as before. -/
theorem portInv_of_boundary {s t : State} {p : Port} (h : PortInv s p) (hb : BoundaryStep p s t)
    (hset : (t.regs p).setUp = (s.regs p).setUp) (hpres : (t.regs p).present = (s.regs p).present)
    (ht : PolicyInv (t.regs p, t.out p)) : PortInv t p := by
  refine ⟨fun hn => ?_, fun hs hp => ?_, ht.vbusSettled, ht.vbusOn, ht.atRest, ht.counters, fun hl => ?_, ht.laneSwap,
    ht.neverConnected, hb.memory h.memory⟩
  · rw [hset] at hn
    exact boundary_irqEn_false hb (by simp [State.live, hn]) (h.beforeSetUp hn)
  · rw [hset] at hs
    rw [hpres] at hp
    have hl : s.live p = false := by simp [State.live, hp]
    obtain ⟨hi, hpend⟩ := h.absentInert hs hp
    exact ⟨boundary_irqEn_false hb hl hi, boundary_pending_false hb hl hi hpend⟩
  · rw [hb.live] at hl
    rw [hb.cfg]
    exact hb.ring (h.ring hl)

end

end Sys2Proof.Machine

/-! ## One lemma per operation: what a run of `MAIN` has done -/

namespace Sys2Proof.Machine

/-- A run of `MAIN` from `s` to `t`, in every environment, that writes to port `q` only by the kinds `W q`. -/
structure MainStep (W : Port → List WriteKind) (s t : State) : Prop where
  boundary : ∀ q, BoundaryStep q s t
  writes : ∀ q, Relation.ReflTransGen (PortWrite (W q)) (s.regs q, s.out q) (t.regs q, t.out q)

section
variable {W : Port → List WriteKind} {s t u : State} {p : Port}

theorem mainStep_refl (W : Port → List WriteKind) (s : State) : MainStep W s s :=
  ⟨fun q => boundary_refl q s, fun _ => .refl⟩

theorem mainStep_trans (h : MainStep W s t) (h' : MainStep W t u) : MainStep W s u :=
  ⟨fun q => boundary_trans (h.boundary q) (h'.boundary q), fun q => (h.writes q).trans (h'.writes q)⟩

theorem mainStep_cfg (h : MainStep W s t) : t.cfg = s.cfg := (h.boundary .p0).cfg

theorem mainStep_live (h : MainStep W s t) (hl : s.live p = true) : t.live p = true := (h.boundary p).live.trans hl

theorem mainStep_present (h : MainStep W s t) (q : Port) : (t.regs q).present = (s.regs q).present :=
  portWrites_keep (f := fun x => x.1.present) (fun _ _ => portWrite_present) (h.writes q)

theorem mainStep_setUp (h : MainStep W s t) (q : Port) : (t.regs q).setUp = (s.regs q).setUp :=
  portWrites_keep (f := fun x => x.1.setUp) (fun _ _ => portWrite_setUp) (h.writes q)

/-- A continuation that writes nothing to any record or output. -/
theorem mainStep_keep (h : MainStep W s t) (hb : ∀ q, BoundaryStep q t u) (hr : ∀ q, u.regs q = t.regs q)
    (ho : ∀ q, u.out q = t.out q) : MainStep W s u :=
  mainStep_trans h ⟨hb, fun q => by rw [hr, ho]⟩

/-- A continuation that makes one write, to port `p`. -/
theorem mainStep_write (h : MainStep W s t) {r : PortRegs} {o : Outputs} (hw : PortWrite (W p) (t.regs p, t.out p) (r, o))
    (hb : ∀ q, BoundaryStep q t u) (hr : u.regs p = r) (ho : u.out p = o)
    (hother : ∀ q, q ≠ p → u.regs q = t.regs q ∧ u.out q = t.out q) : MainStep W s u := by
  refine mainStep_trans h ⟨hb, fun q => ?_⟩
  by_cases e : q = p
  · subst e; rw [hr, ho]; exact .single hw
  · obtain ⟨hr', ho'⟩ := hother q e
    rw [hr', ho']

/-- A continuation that makes one write, to the record of port `p` only. -/
theorem mainStep_updRegs (h : MainStep W s t) {f : PortRegs → PortRegs}
    (hw : PortWrite (W p) (t.regs p, t.out p) (f (t.regs p), t.out p)) : MainStep W s (t.updRegs p f) := by
  have hl : ((f (t.regs p)).setUp && (f (t.regs p)).present) = t.live p := by
    rw [portWrite_setUp hw, portWrite_present hw]; rfl
  exact mainStep_write h hw (fun q => boundary_updRegs (boundary_refl q t) p hl) (by simp) (by simp)
    fun q e => by simp [e]

/-! ### Primitives -/

theorem mainStep_point (h : MainStep W s t) : MainStep W s (point t) :=
  mainStep_keep h (fun q => boundary_point (boundary_refl q t)) (by simp) (by simp)
theorem mainStep_diag (h : MainStep W s t) (p : Port) : MainStep W s (diag p t) :=
  mainStep_keep h (fun q => boundary_diag (boundary_refl q t) p) (by simp) (by simp)
theorem mainStep_raise (h : MainStep W s t) (c : Condition) : MainStep W s (raise c t) :=
  mainStep_keep h (fun q => boundary_raise (boundary_refl q t) c) (by simp) (by simp)
theorem mainStep_delay (h : MainStep W s t) (p : Port) (d : DelayKind) : MainStep W s (delay p d t) :=
  mainStep_keep h (fun q => boundary_delay (boundary_refl q t) p d) (by simp) (by simp)
theorem mainStep_logLine (h : MainStep W s t) (p : Port) (l : LogBody) : MainStep W s (logLine p l t) :=
  mainStep_keep h (fun q => boundary_logLine (boundary_refl q t) p l) (by simp) (by simp)
theorem mainStep_uartPut (h : MainStep W s t) (p : Port) (b : Byte) : MainStep W s (uartPut p b t) :=
  mainStep_keep h (fun q => boundary_uartPut (boundary_refl q t) p b) (by simp) (by simp)
theorem mainStep_hostSend (h : MainStep W s t) (p : Port) (e : Event) : MainStep W s (hostSend p e t) :=
  mainStep_keep h (fun q => boundary_hostSend (boundary_refl q t) p e) (by simp) (by simp)
theorem mainStep_intStatusReadClear (h : MainStep W s t) (p : Port) : MainStep W s (intStatusReadClear p t).2 :=
  mainStep_keep h (fun q => boundary_intStatusReadClear (boundary_refl q t) p) (by simp) (by simp)
theorem mainStep_rxGet (h : MainStep W s t) (p : Port) : MainStep W s (rxGet p t).2 :=
  mainStep_keep h (fun q => boundary_rxGet (boundary_refl q t) p) (by simp) (by simp)
theorem mainStep_hostTryRecv (h : MainStep W s t) (p : Port) : MainStep W s (hostTryRecv p t).2 :=
  mainStep_keep h (fun q => boundary_hostTryRecv (boundary_refl q t) p) (by simp) (by simp)
theorem mainStep_ringGet (h : MainStep W s t) (p : Port) : MainStep W s (ringGet p t).2 :=
  mainStep_keep h (fun q => boundary_ringGet (boundary_refl q t) p) (by simp) (by simp)
theorem mainStep_ringPut (h : MainStep W s t) (p : Port) (b : Byte) : MainStep W s (ringPut p b t) :=
  mainStep_keep h (fun q => boundary_ringPut (boundary_refl q t) p b) (by simp) (by simp)
theorem mainStep_uartReceive (h : MainStep W s t) (p : Port) (b : Byte) : MainStep W s (uartReceive p b t) :=
  mainStep_keep h (fun q => boundary_uartReceive (boundary_refl q t) p b) (by simp) (by simp)
theorem mainStep_chipIrq (h : MainStep W s t) : MainStep W s (chipIrq t) :=
  mainStep_keep h (fun q => boundary_chipIrq (boundary_refl q t)) (by simp) (by simp)
theorem mainStep_clearPending (h : MainStep W s t) (p : Port) : MainStep W s (clearPending p t) :=
  mainStep_keep h (fun q => boundary_clearPending (boundary_refl q t) p) (by simp [clearPending]) (by simp [clearPending])
theorem mainStep_setPending (h : MainStep W s t) (hl : s.live p = true) : MainStep W s (setPending p t) :=
  mainStep_keep h (fun q => boundary_setPending (boundary_refl q t) (mainStep_live h hl)) (by simp [setPending])
    (by simp [setPending])
theorem mainStep_armLine (h : MainStep W s t) (hl : s.live p = true) : MainStep W s (armLine p t) :=
  mainStep_keep h (fun q => boundary_armLine (boundary_refl q t) (mainStep_live h hl)) (by simp [armLine]) (by simp [armLine])

/-- A continuation that changes only globals that no statement about a port speaks of. -/
theorem mainStep_congr (h : MainStep W s t) (hc : u.cfg = t.cfg) (hp : ∀ q, u.port q = t.port q) : MainStep W s u := by
  have hr : ∀ q, u.regs q = t.regs q := fun q => congrArg PortState.regs (hp q)
  refine mainStep_keep h (fun q => ?_) hr fun q => congrArg PortState.out (hp q)
  exact boundary_congr (boundary_refl q t) hc (by simp [State.live, hr]) (congrArg PortState.shared (hp q))
    (congrArg (fun x => x.env.tcpc) (hp q))

theorem mainStep_setPos (h : MainStep W s t) (x : MainPos) : MainStep W s (t.setPos x) := mainStep_congr h rfl fun _ => rfl
theorem mainStep_setWake (h : MainStep W s t) (x : Bool) : MainStep W s (t.setWake x) := mainStep_congr h rfl fun _ => rfl
theorem mainStep_setCalls (h : MainStep W s t) (x : List BreakCall) : MainStep W s (t.setCalls x) :=
  mainStep_congr h rfl fun _ => rfl
theorem mainStep_setRet (h : MainStep W s t) (x : Option Byte) : MainStep W s (t.setRet x) :=
  mainStep_congr h rfl fun _ => rfl
theorem mainStep_setHalt (h : MainStep W s t) (x : Halt) : MainStep W s (t.setHalt x) := mainStep_congr h rfl fun _ => rfl
theorem mainStep_setWdogArmed (h : MainStep W s t) (x : Bool) : MainStep W s (t.setWdogArmed x) :=
  mainStep_congr h rfl fun _ => rfl
theorem mainStep_setFreeCtr (h : MainStep W s t) (x : Nat) : MainStep W s (t.setFreeCtr x) :=
  mainStep_congr h rfl fun _ => rfl

/-! ### Transmission

Every transmit operation of R150 to R163 is the optional `DIAG` lines and one `Tx`. -/

theorem mainStep_diag_tx (h : MainStep W s t) (p : Port) (k : TxKind) (c : MsgCode) (o : Objs) :
    MainStep W s (tx p k c o (diag p t)) :=
  mainStep_keep (mainStep_diag h p) (fun q => boundary_tx (boundary_refl q _) p k c o) (by simp) (by simp)

theorem mainStep_txSourceCap (h : MainStep W s t) (p : Port) : MainStep W s (txSourceCap p t) := mainStep_diag_tx h p _ _ _
theorem mainStep_txProbe (h : MainStep W s t) (p : Port) : MainStep W s (txProbe p t) := mainStep_diag_tx h p _ _ _

theorem mainStep_txVdmSerialRoute (hP : .policy ∈ W p) (h : MainStep W s t) : MainStep W s (txVdmSerialRoute p t) := by
  refine mainStep_write h (.routing hP _ _) (fun q => ?_) (by simp [txVdmSerialRoute])
    (by simp [txVdmSerialRoute, writeOutput]) fun q e => by simp [txVdmSerialRoute, e]
  exact boundary_outWritePair (boundary_tx (boundary_diag (boundary_refl q t) p) p _ _ _) p _ _

end

end Sys2Proof.Machine

/-! ### Policy engine: record and outputs after the operations that make several output writes -/

namespace Sys2Proof.Machine

section
variable {q : Port} {s t : State}

@[simp] theorem vbusOff_regs (s : State) (p q : Port) : (vbusOff p s).regs q = s.regs q := by simp [vbusOff]

@[simp] theorem vbusOff_out (s : State) (p q : Port) :
    (vbusOff p s).out q = if q = p then { s.out q with vbus := .released } else s.out q := by
  by_cases e : q = p <;> simp [vbusOff, writeOutput, e]

theorem boundary_vbusOff (h : BoundaryStep q s t) (p : Port) : BoundaryStep q s (vbusOff p t) :=
  boundary_outWrite (boundary_delay (boundary_outWrite (boundary_diag h p) p _) p _) p _

@[simp] theorem disconnect_regs (s : State) (p q : Port) :
    (disconnect p s).regs q = if q = p then disconnectedRegs (s.regs q) else s.regs q := by
  simp [disconnect, disconnectedRegs]

@[simp] theorem disconnect_out (s : State) (p q : Port) :
    (disconnect p s).out q = if q = p then disconnectedOut (s.out q) else s.out q := by
  by_cases e : q = p <;> simp [disconnect, disconnectedOut, writeOutput, e]

theorem boundary_disconnect (h : BoundaryStep q s t) (p : Port) : BoundaryStep q s (disconnect p t) :=
  boundary_updRegs (boundary_outWrite (boundary_outWrite (boundary_outWrite
    (boundary_vbusOff (boundary_diag h p) p) p _) p _) p _) p (f := disconnectedRegs) rfl

@[simp] theorem attach_regs (s : State) (p q : Port) (cc : Nat × Nat) :
    (attach p cc s).regs q = if q = p then attachedRegs cc (s.regs q) else s.regs q := by
  by_cases e : q = p <;> by_cases hv : wantVconn cc = true <;> simp [attach, attachedRegs, txProbe, e, hv]

@[simp] theorem attach_out (s : State) (p q : Port) (cc : Nat × Nat) :
    (attach p cc s).out q = if q = p then attachedOut cc (s.out q) else s.out q := by
  by_cases e : q = p <;> by_cases hv : wantVconn cc = true <;>
    simp [attach, attachedOut, txProbe, writeOutput, e, hv]

theorem boundary_outWrite_if (h : BoundaryStep q s t) (c : Bool) (p : Port) (w : OutWrite) :
    BoundaryStep q s (if c then outWrite p w t else t) := by
  split_ifs
  · exact boundary_outWrite h p w
  · exact h

theorem boundary_attach (h : BoundaryStep q s t) (p : Port) (cc : Nat × Nat) : BoundaryStep q s (attach p cc t) := by
  have h1 := boundary_outWrite (boundary_outWrite (boundary_tcpcReset h p) p (.hdrRole .source)) p (.vconn false)
  have h2 := boundary_outWrite (boundary_updRegs h1 p (f := fun r => { r with pol := selectPolarity cc }) rfl) p
    (.chipPol (chipPolOf (selectPolarity cc)))
  have h3 := boundary_outWrite (boundary_outWrite (boundary_outWrite_if h2 (wantVconn cc) p (.vconn true)) p (.rxEn true)) p
    (.vbus .on)
  exact boundary_tx (boundary_diag (boundary_updRegs h3 p (f := fun r => { r with ps := .dfpVbusOn }) rfl) p) p _ _ _

end

/-! ### Policy engine -/

section
variable {W : Port → List WriteKind} {s t : State} {p : Port}

theorem mainStep_vbusOff (hP : .policy ∈ W p) (h : MainStep W s t) : MainStep W s (vbusOff p t) :=
  mainStep_write h (.releaseVbus hP _ _) (fun q => boundary_vbusOff (boundary_refl q t) p) (by simp) (by simp)
    fun q e => by simp [e]

theorem mainStep_disconnect (hP : .policy ∈ W p) (h : MainStep W s t) : MainStep W s (disconnect p t) :=
  mainStep_write h (.disconnect hP _ _) (fun q => boundary_disconnect (boundary_refl q t) p) (by simp) (by simp)
    fun q e => by simp [e]

theorem mainStep_attach (hA : .attach ∈ W p) (h : MainStep W s t) (hl : s.live p = true) (cc : Nat × Nat) :
    MainStep W s (attach p cc t) := by
  have hp : (t.regs p).present = true := by
    have := mainStep_live h hl
    simp only [State.live, Bool.and_eq_true] at this
    exact this.2
  exact mainStep_write h (.attach hA _ _ cc hp) (fun q => boundary_attach (boundary_refl q t) p cc) (by simp) (by simp)
    fun q e => by simp [e]

theorem mainStep_enter (hP : .policy ∈ W p) (h : MainStep W s t) (x : PolicyState) (hd : x ≠ .disconnected)
    (hc : x ≠ .connected) : MainStep W s (t.updRegs p fun r => { r with ps := x }) :=
  mainStep_updRegs h (.enter hP _ _ x hd hc)

theorem mainStep_onAttach (hA : .attach ∈ W p) (h : MainStep W s t) (hl : s.live p = true) :
    MainStep W s (onAttach p t) := by
  have hp := mainStep_point (mainStep_diag h p)
  unfold onAttach
  dsimp only
  split_ifs
  · exact mainStep_attach hA hp hl _
  · exact mainStep_raise hp _

theorem mainStep_pollDisconnected (hA : .attach ∈ W p) (h : MainStep W s t) (hl : s.live p = true) :
    MainStep W s (pollDisconnected p t) := by
  have hp := mainStep_point (mainStep_diag h p)
  unfold pollDisconnected
  dsimp only
  split_ifs
  · exact mainStep_onAttach hA hp hl
  · exact mainStep_delay hp p _

/-- The retry counter: below its threshold it counts, past it two messages go out and it is cleared (R124). -/
theorem mainStep_tickVbusOn (hP : .policy ∈ W p) (h : MainStep W s t)
    (hc : (t.regs p).ps = .disconnected → .looseCount ∈ W p) : MainStep W s (tickVbusOn p t) := by
  have hd := mainStep_diag h p
  unfold tickVbusOn
  dsimp only
  split_ifs with hn
  · refine mainStep_write hd (.retries hP _ _ 0 (Nat.zero_le _) fun _ => .inl rfl) (fun q => ?_) (by simp [txProbe, txSourceCap])
      (by simp [txProbe, txSourceCap]) fun q e => by simp [txProbe, txSourceCap, e]
    have hn := boundary_updRegs (boundary_refl q (diag p t)) p (f := fun r => { r with sct := r.sct + 1 }) rfl
    exact boundary_updRegs (boundary_tx (boundary_diag (boundary_tx (boundary_diag hn p) p _ _ _) p) p _ _ _) p (by rfl)
  · refine mainStep_updRegs hd (.retries hP _ _ _ ?_ fun e => .inr (hc (by simpa using e)))
    simpa using hn

theorem mainStep_tickReady (hP : .policy ∈ W p) (h : MainStep W s t) : MainStep W s (tickReady p t) :=
  mainStep_enter hP (mainStep_diag h p) .idle (by decide) (by decide)

/-- The low-reading counter: within its limit it counts, past it the port disconnects (R127). -/
theorem mainStep_debounce (hP : .policy ∈ W p) (h : MainStep W s t)
    (hc : (t.regs p).ps = .disconnected → .looseCount ∈ W p) : MainStep W s (debounce p t) := by
  have hd := mainStep_point (mainStep_diag h p)
  unfold debounce
  dsimp only
  split_ifs with hlow hn
  · refine mainStep_write hd (.disconnect hP _ _) (fun q => ?_) (by simp [disconnectedRegs]) (by simp) fun q e => by simp [e]
    exact boundary_disconnect (boundary_updRegs (boundary_refl q _) p (f := fun r => { r with deb := r.deb + 1 }) rfl) p
  · refine mainStep_raise (mainStep_updRegs hd (.lowReadings hP _ _ _ ?_ fun e => .inr (hc (by simpa using e)))) _
    simpa using hn
  · exact mainStep_updRegs hd (.lowReadings hP _ _ 0 (Nat.zero_le _) fun _ => .inl rfl)

theorem mainStep_tickState (hP : .policy ∈ W p) (hA : .attach ∈ W p) (h : MainStep W s t) (hl : s.live p = true) :
    MainStep W s (tickState p t) := by
  unfold tickState
  split
  next => exact mainStep_pollDisconnected hA h hl
  next e => exact mainStep_tickVbusOn hP h fun e' => by simp [e] at e'
  next => exact mainStep_tickReady hP h
  all_goals exact h

/-- The state's own step of a tick disconnects no port (R126). -/
theorem tickState_ps {p : Port} {t : State} (h : (t.regs p).ps ≠ .disconnected) :
    ((tickState p t).regs p).ps ≠ .disconnected := by
  unfold tickState
  split
  next e => exact absurd e h
  next =>
    unfold tickVbusOn
    dsimp only
    split_ifs <;> simpa [txProbe, txSourceCap] using h
  next => simp [tickReady]
  all_goals exact h

theorem mainStep_tick (hP : .policy ∈ W p) (hA : .attach ∈ W p) (h : MainStep W s t) (hl : s.live p = true) :
    MainStep W s (tick p t) := by
  have hd := mainStep_tickState hP hA (mainStep_diag h p) hl
  unfold tick
  dsimp only
  split_ifs with e
  · exact hd
  · exact mainStep_debounce hP hd fun e' => absurd e' (tickState_ps e)

theorem mainStep_onTxComplete (hP : .policy ∈ W p) (h : MainStep W s t) : MainStep W s (onTxComplete p t) := by
  have hd := mainStep_diag h p
  unfold onTxComplete
  dsimp only
  split
  next => exact mainStep_txVdmSerialRoute hP (mainStep_enter hP hd .dfpConnected (by decide) (by decide))
  next => exact mainStep_enter hP (mainStep_diag_tx hd p _ _ _) .idle (by decide) (by decide)
  all_goals exact hd

end

end Sys2Proof.Machine

/-! ### Messages -/

namespace Sys2Proof.Machine

section
variable {W : Port → List WriteKind} {s t : State} {p : Port}

theorem mainStep_rxRequest (hP : .policy ∈ W p) (h : MainStep W s t) (m : Msg) : MainStep W s (rxRequest p m t) :=
  mainStep_enter hP (mainStep_diag_tx (mainStep_diag h p) p _ _ _) .dfpAccept (by decide) (by decide)

theorem mainStep_rxGetSinkCap (hP : .policy ∈ W p) (h : MainStep W s t) (m : Msg) : MainStep W s (rxGetSinkCap p m t) :=
  mainStep_enter hP (mainStep_diag_tx (mainStep_diag h p) p _ _ _) .ready (by decide) (by decide)

theorem mainStep_vdmDiscoverIdentityReq (hP : .policy ∈ W p) (h : MainStep W s t) (m : Msg) :
    MainStep W s (vdmDiscoverIdentityReq p m t) :=
  mainStep_enter hP (mainStep_diag_tx (mainStep_diag h p) p _ _ _) .ready (by decide) (by decide)

theorem mainStep_vdmDiscoverIdentityAck (h : MainStep W s t) (p : Port) (m : Msg) :
    MainStep W s (vdmDiscoverIdentityAck p m t) := by
  have hd := mainStep_diag h p
  unfold vdmDiscoverIdentityAck
  dsimp only
  split_ifs
  · exact mainStep_logLine (mainStep_setFreeCtr hd _) p _
  · exact mainStep_setFreeCtr hd _
  · exact hd

theorem mainStep_vdmOther (h : MainStep W s t) (p : Port) (m : Msg) : MainStep W s (vdmOther p m t) :=
  mainStep_raise (mainStep_diag h p) _

theorem mainStep_rxEmpty (h : MainStep W s t) (p : Port) (m : RxRecord) : MainStep W s (rxEmpty p m t) :=
  mainStep_raise (mainStep_diag h p) _

theorem mainStep_rxOther (h : MainStep W s t) (p : Port) (m : Msg) : MainStep W s (rxOther p m t) :=
  mainStep_raise (mainStep_diag h p) _

theorem mainStep_rxVdm (hP : .policy ∈ W p) (h : MainStep W s t) (m : Msg) : MainStep W s (rxVdm p m t) := by
  have hd := mainStep_diag h p
  unfold rxVdm
  dsimp only
  split
  next => exact mainStep_vdmDiscoverIdentityReq hP hd m
  next => exact mainStep_vdmDiscoverIdentityAck hd p m
  next => exact mainStep_vdmOther hd p m

theorem mainStep_runRxOp (hP : .policy ∈ W p) (h : MainStep W s t) (o : RxOp) : MainStep W s (runRxOp p o t) := by
  cases o with
  | empty r => exact mainStep_rxEmpty h p r
  | sourceCap m | prSwap m | drSwap m => exact mainStep_diag_tx (mainStep_diag h p) p _ _ _
  | request m => exact mainStep_rxRequest hP h m
  | vendorDefined m => exact mainStep_rxVdm hP h m
  | getSinkCap m => exact mainStep_rxGetSinkCap hP h m
  | other m => exact mainStep_rxOther h p m

theorem mainStep_onMessage (hP : .policy ∈ W p) (h : MainStep W s t) (m : RxRecord) : MainStep W s (onMessage p m t) :=
  mainStep_runRxOp hP (mainStep_diag h p) _

/-! ### Event dispatcher -/

theorem mainStep_evVbusGood (hP : .policy ∈ W p) (h : MainStep W s t) : MainStep W s (evVbusGood p t) := by
  have hp := mainStep_point (mainStep_diag h p)
  unfold evVbusGood
  dsimp only
  split_ifs
  · exact mainStep_txProbe (mainStep_txSourceCap hp p) p
  · exact mainStep_disconnect hP (mainStep_raise hp _)

theorem mainStep_evHardReset (hP : .policy ∈ W p) (h : MainStep W s t) : MainStep W s (evHardReset p t) :=
  mainStep_disconnect hP (mainStep_raise (mainStep_diag h p) _)

theorem mainStep_evTxSuccess (hP : .policy ∈ W p) (h : MainStep W s t) : MainStep W s (evTxSuccess p t) :=
  mainStep_onTxComplete hP (mainStep_diag h p)

theorem mainStep_drainRxOnce (hP : .policy ∈ W p) (h : MainStep W s t) {u : State} (hu : drainRxOnce p t = some u) :
    MainStep W s u := by
  have hg := mainStep_rxGet (mainStep_point (mainStep_point h)) p
  unfold drainRxOnce at hu
  dsimp only at hu
  split_ifs at hu
  split at hu <;> cases hu
  next m v e => rw [e] at hg; exact mainStep_onMessage hP hg m
  next e => rw [e] at hg; exact hg

theorem mainStep_drainRx (hP : .policy ∈ W p) (h : MainStep W s t) (n : Nat) : MainStep W s (drainRx p n t) := by
  induction n generalizing t with
  | zero => exact h
  | succ n ih =>
    unfold drainRx
    split
    next e => exact ih (mainStep_drainRxOnce hP h e)
    next => exact mainStep_point h

theorem mainStep_evMsgRx (hP : .policy ∈ W p) (h : MainStep W s t) : MainStep W s (evMsgRx p t) :=
  mainStep_drainRx hP (mainStep_diag h p) _

theorem mainStep_runEvent (hP : .policy ∈ W p) (h : MainStep W s t) (k : EvKind) : MainStep W s (runEvent p k t) := by
  cases k with
  | vbusGood => exact mainStep_evVbusGood hP h
  | hardReset => exact mainStep_evHardReset hP h
  | txSuccess => exact mainStep_evTxSuccess hP h
  | msgRx => exact mainStep_evMsgRx hP h

theorem mainStep_runEvents (hP : .policy ∈ W p) (h : MainStep W s t) (ks : List EvKind) :
    MainStep W s (runEvents p ks t) := by
  induction ks generalizing t with
  | nil => exact h
  | cons k ks ih => exact ih (mainStep_runEvent hP h k)

theorem mainStep_rearm (h : MainStep W s t) (hl : s.live p = true) : MainStep W s (rearm p t) :=
  mainStep_armLine (mainStep_diag h p) hl

theorem mainStep_service (hP : .policy ∈ W p) (hA : .attach ∈ W p) (h : MainStep W s t) (hl : s.live p = true) :
    MainStep W s (service p t) :=
  mainStep_rearm (mainStep_tick hP hA (mainStep_runEvents hP (mainStep_intStatusReadClear (mainStep_diag h p) p) _) hl) hl

/-! ### Multiplexer -/

theorem mainStep_disarmEscape (hE : .esc ∈ W p) (h : MainStep W s t) : MainStep W s (disarmEscape p t) :=
  mainStep_updRegs h (.esc hE _ _ false)

theorem mainStep_armEscape (hE : .esc ∈ W p) (h : MainStep W s t) : MainStep W s (armEscape p t) :=
  mainStep_updRegs h (.esc hE _ _ true)

/-- What every armed-mode operation starts with (R190, R205). -/
theorem mainStep_diag_disarm (hE : .esc ∈ W p) (h : MainStep W s t) : MainStep W s (diag p (disarmEscape p t)) :=
  mainStep_diag (mainStep_disarmEscape hE h) p

theorem mainStep_escArm (hE : .esc ∈ W p) (h : MainStep W s t) : MainStep W s (escArm p t) :=
  mainStep_armEscape hE (mainStep_diag h p)

theorem mainStep_cmdSelfReset (hE : .esc ∈ W p) (h : MainStep W s t) : MainStep W s (cmdSelfReset p t) :=
  mainStep_raise (mainStep_setWdogArmed (mainStep_diag_disarm hE h) _) _

theorem mainStep_cmdFwUpdate (hE : .esc ∈ W p) (h : MainStep W s t) : MainStep W s (cmdFwUpdate p t) :=
  mainStep_raise (mainStep_setHalt (mainStep_diag_disarm hE h) _) _

theorem mainStep_cmdForceDisconnect (hE : .esc ∈ W p) (hP : .policy ∈ W p) (h : MainStep W s t) (hl : s.live p = true) :
    MainStep W s (cmdForceDisconnect p t) :=
  mainStep_disconnect hP (mainStep_setPending (mainStep_diag_disarm hE h) hl)

theorem mainStep_cmdToggleVerbose (hE : .esc ∈ W p) (hV : .verbose ∈ W p) (h : MainStep W s t) :
    MainStep W s (cmdToggleVerbose p t) :=
  mainStep_diag (mainStep_updRegs (mainStep_diag_disarm hE h) (.verbose hV _ _ _)) p

theorem mainStep_selectRoute (hE : .esc ∈ W p) (hR : .route ∈ W p) (h : MainStep W s t) (r : Route) :
    MainStep W s (selectRoute p r t) :=
  mainStep_diag_tx (mainStep_updRegs (mainStep_diag_disarm hE h) (.route hR _ _ r)) p _ _ _

theorem mainStep_cmdHelp (hE : .esc ∈ W p) (h : MainStep W s t) : MainStep W s (cmdHelp p t) :=
  mainStep_logLine (mainStep_diag_disarm hE h) p _

theorem mainStep_outWrite_uartBreak (hP : .policy ∈ W p) (h : MainStep W s t) (b : Bool) :
    MainStep W s (outWrite p (.uartBreak b) (diag p t)) :=
  mainStep_write h (.uartBreak hP _ _ b) (fun q => boundary_outWrite (boundary_diag (boundary_refl q t) p) p _) (by simp)
    (by simp [writeOutput]) fun q e => by simp [e]

theorem mainStep_ringGetOp (h : MainStep W s t) (p : Port) : MainStep W s (ringGetOp p t) :=
  mainStep_diag (mainStep_setRet (mainStep_ringGet h p) _) p

theorem mainStep_drainRing (h : MainStep W s t) (p : Port) (n : Nat) : MainStep W s (drainRing p n t) := by
  induction n generalizing t with
  | zero => exact h
  | succ n ih =>
    have hg := mainStep_ringGet (mainStep_point h) p
    unfold drainRing
    split
    next u e => rw [e] at hg; exact mainStep_diag hg p
    next b u e => rw [e] at hg; exact ih (mainStep_hostSend (mainStep_diag hg p) p _)

theorem mainStep_drainToHost (h : MainStep W s t) (p : Port) : MainStep W s (drainToHost p t) :=
  mainStep_drainRing (mainStep_diag h p) p _

/-- The kinds of writes that the operations of the host bytes make, all together. -/
def byteKinds : List WriteKind := [.policy, .route, .verbose, .esc]

theorem mainStep_runByteOp (hW : byteKinds ⊆ W p) (h : MainStep W s t) (hl : s.live p = true) (o : ByteOp) :
    MainStep W s (runByteOp p o t) := by
  have hP : .policy ∈ W p := hW (by decide)
  have hE : .esc ∈ W p := hW (by decide)
  have hV : .verbose ∈ W p := hW (by decide)
  have hR : .route ∈ W p := hW (by decide)
  cases o with
  | pass b => exact mainStep_uartPut (mainStep_diag h p) p b
  | escArm => exact mainStep_escArm hE h
  | escLiteral => exact mainStep_uartPut (mainStep_diag_disarm hE h) p _
  | cmdRebootTarget | cmdDebugProbe => exact mainStep_diag_tx (mainStep_diag_disarm hE h) p _ _ _
  | cmdSelfReset => exact mainStep_cmdSelfReset hE h
  | cmdFwUpdate => exact mainStep_cmdFwUpdate hE h
  | cmdForceDisconnect => exact mainStep_cmdForceDisconnect hE hP h hl
  | cmdToggleVerbose => exact mainStep_cmdToggleVerbose hE hV h
  | cmdRoute1 | cmdRoute2 => exact mainStep_selectRoute hE hR h _
  | cmdHelp => exact mainStep_cmdHelp hE h
  | cmdDrop b => exact mainStep_diag_disarm hE h

theorem mainStep_muxByte (hW : byteKinds ⊆ W p) (h : MainStep W s t) (hl : s.live p = true) (b : Byte) :
    MainStep W s (muxByte p b t) := mainStep_runByteOp hW h hl _

theorem mainStep_pumpLoop (hW : byteKinds ⊆ W p) (h : MainStep W s t) (hl : s.live p = true) (n : Nat) :
    MainStep W s (pumpLoop p n t) := by
  induction n generalizing t with
  | zero => exact h
  | succ n ih =>
    have hg := mainStep_hostTryRecv (mainStep_point h) p
    unfold pumpLoop
    split
    next u e => rw [e] at hg; exact mainStep_drainToHost hg p
    next b u e =>
      rw [e] at hg
      have hb := mainStep_muxByte hW hg hl b
      dsimp only
      split_ifs
      · exact ih hb
      · exact hb

theorem mainStep_muxPump (hW : byteKinds ⊆ W p) (h : MainStep W s t) (hl : s.live p = true) :
    MainStep W s (muxPump p t) := mainStep_pumpLoop hW h hl _

/-! ### Run loop -/

theorem mainStep_deliverBreak (hP : ∀ p, .policy ∈ W p) (h : MainStep W s t) (c : BreakCall) :
    MainStep W s (deliverBreak c t) := by
  unfold deliverBreak
  split_ifs
  · exact mainStep_outWrite_uartBreak (hP _) h true
  · exact mainStep_outWrite_uartBreak (hP _) h false
  · exact h

theorem mainStep_deliverCalls (hP : ∀ p, .policy ∈ W p) (h : MainStep W s t) (n : Nat) :
    MainStep W s (deliverCalls n t) := by
  induction n generalizing t with
  | zero => exact h
  | succ n ih =>
    unfold deliverCalls
    split_ifs
    · exact h
    · split
      · exact h
      · exact ih (mainStep_deliverBreak hP (mainStep_setCalls h _) _)

theorem mainStep_transportService (hP : ∀ p, .policy ∈ W p) (h : MainStep W s t) : MainStep W s (transportService t) :=
  mainStep_deliverCalls hP (mainStep_point h) _

theorem mainStep_idleWait (h : MainStep W s t) : MainStep W s (idleWait t) := by
  unfold idleWait
  dsimp only
  split_ifs
  · exact mainStep_setPos (mainStep_setWake (mainStep_point h) _) _
  · exact mainStep_setPos (mainStep_point h) _

theorem mainStep_idleTest (h : MainStep W s t) : MainStep W s (idleTest t) :=
  mainStep_setPos (mainStep_setWake (mainStep_point h) _) _

theorem mainStep_takePending (h : MainStep W s t) (p : Port) : MainStep W s (takePending p t).2 :=
  mainStep_setPos (mainStep_clearPending (mainStep_point h) p) _

theorem mainStep_setPos_if (h : MainStep W s t) (c : Bool) (x : MainPos) :
    MainStep W s (if c then t.setPos x else t) := by
  split_ifs
  · exact mainStep_setPos h x
  · exact h

/-- The kinds of writes that a pass makes. -/
def passKinds : List WriteKind := .attach :: byteKinds

theorem mainStep_portPass (hW : passKinds ⊆ W p) (h : MainStep W s t) : MainStep W s (portPass p t) := by
  unfold portPass
  split_ifs with hl
  · have hp := mainStep_takePending h p
    have hls : s.live p = true := (h.boundary p).live.symm.trans hl
    have hs : MainStep W s (if (takePending p t).1 then service p (takePending p t).2 else (takePending p t).2) := by
      split_ifs
      · exact mainStep_service (hW (by decide)) (hW (by decide)) hp hls
      · exact hp
    exact mainStep_setPos_if (mainStep_muxPump (fun _ hk => hW (List.mem_cons_of_mem _ hk)) hs hls) _ _
  · exact mainStep_setPos h _

theorem mainStep_endPass (hP : ∀ p, .policy ∈ W p) (h : MainStep W s t) : MainStep W s (endPass t) := by
  have hi := mainStep_idleTest (mainStep_transportService hP (mainStep_setPos h .idleTest))
  unfold endPass
  dsimp only
  split_ifs
  · exact mainStep_idleWait hi
  · exact hi

theorem mainStep_runPass (hW : ∀ p, passKinds ⊆ W p) (h : MainStep W s t) : MainStep W s (runPass t) := by
  have h0 := mainStep_portPass (hW .p0) h
  have h1 := mainStep_portPass (hW .p1) h0
  unfold runPass
  dsimp only
  split_ifs
  · exact mainStep_endPass (fun p => hW p (by decide)) h1
  · exact h1
  · exact h0

end

end Sys2Proof.Machine

/-! ## Every operation, by the kinds of its writes -/

namespace Sys2Proof.Machine

/-- The kinds of writes that an operation may make; of a setup and of a device reset, which are no sequence of writes, it
says nothing. -/
def opKinds : Instr → List WriteKind
  | .tickReady _ | .onTxComplete _ | .disconnect _ | .vbusOff _ | .onMessage _ _ | .rxRequest _ _ | .rxVdm _ _
  | .rxGetSinkCap _ _ | .vdmDiscoverIdentityReq _ _ | .txVdmSerialRoute _ | .evVbusGood _ | .evHardReset _
  | .evTxSuccess _ | .evMsgRx _ | .breakBegin _ _ | .breakEnd _ _ | .transportService => [.policy]
  | .tickVbusOn _ | .debounce _ => [.policy, .looseCount]
  | .onAttach _ | .pollDisconnected _ => [.attach]
  | .tick _ | .service _ => [.policy, .attach]
  | .escArm _ | .escLiteral _ | .cmdRebootTarget _ | .cmdSelfReset _ | .cmdFwUpdate _ | .cmdDebugProbe _ | .cmdHelp _
  | .cmdDrop _ _ => [.esc]
  | .cmdForceDisconnect _ => [.policy, .esc]
  | .cmdToggleVerbose _ => [.esc, .verbose]
  | .cmdRoute1 _ | .cmdRoute2 _ => [.esc, .route]
  | .muxPump _ => byteKinds
  | .runPass => passKinds
  | .setup _ | .rxSourceCap _ _ | .rxPrSwap _ _ | .rxDrSwap _ _ | .rxEmpty _ _ | .rxOther _ _
  | .vdmDiscoverIdentityAck _ _ | .vdmOther _ _ | .txSourceCap _ | .txRequest _ | .txAccept _ | .txReject _ | .txPsRdy _
  | .txSinkCap _ | .txProbe _ | .txIdentityAck _ | .txVdmReboot _ | .txVdmDfuHold _ | .txVdmPdReset _ | .irqHandler
  | .rearm _ | .pass _ _ | .uartRxIrq _ _ | .ringPut _ _ | .ringGet _ | .drainToHost _ | .mainEntry | .idleWait
  | .deviceReset _ => []

/-- The kinds of writes that an operation may make to port `q`: none, if it is an operation of another port. -/
def portKinds (i : Instr) (q : Port) : List WriteKind :=
  match instrPort i with
  | some p => if q = p then opKinds i else []
  | none => opKinds i

theorem portKinds_own {i : Instr} {p : Port} (h : instrPort i = some p) : portKinds i p = opKinds i := by
  simp [portKinds, h]

theorem portKinds_other {i : Instr} {p q : Port} (h : instrPort i = some p) (e : q ≠ p) : portKinds i q = [] := by
  simp [portKinds, h, e]

theorem portKinds_global {i : Instr} (h : instrPort i = none) (q : Port) : portKinds i q = opKinds i := by
  simp [portKinds, h]

theorem portKinds_subset (i : Instr) (q : Port) : portKinds i q ⊆ opKinds i := by
  unfold portKinds
  split
  · split_ifs
    · exact List.Subset.refl _
    · exact List.nil_subset _
  · exact List.Subset.refl _

section
variable {W : Port → List WriteKind} {s t u : State} {p : Port}

theorem stallOutcome_next (h : stallOutcome u = .next t) : t = u := by
  unfold stallOutcome at h
  split at h
  · cases h; rfl
  · cases h

/-- An operation behind the guard of its port runs on a live port, or leaves an absent one as it is (R29, R281). -/
theorem guardPort_next {k : State → Host.Outcome State Fault Refusal} (h : guardPort p k s = .next t) :
    s.live p = true ∧ k s = .next t ∨ t = s := by
  unfold guardPort at h
  split_ifs at h with hs hp
  · exact .inl ⟨by simp [State.live, hs, hp], h⟩
  · cases h; exact .inr rfl

theorem mainStep_onPort {f : State → State} (h : onPort p f s = .next t) (hf : s.live p = true → MainStep W s (f s)) :
    MainStep W s t := by
  obtain ⟨hl, hk⟩ | rfl := guardPort_next h
  · rw [stallOutcome_next hk]; exact hf hl
  · exact mainStep_refl W _

theorem mainStep_onPortIrq {f : State → State} (h : onPortIrq p f s = .next t) (hf : MainStep W s (f s)) :
    MainStep W s t := by
  obtain ⟨-, hk⟩ | rfl := guardPort_next h
  · cases hk; exact hf
  · exact mainStep_refl W _

/-- An operation of one port, but for its `SETUP`, is a run of `MAIN` that writes to that port by its own kinds. -/
theorem mainStep_exec_port {i : Instr} (hi : instrPort i = some p) (hs : i ≠ .setup p) (hW : opKinds i ⊆ W p)
    (h : exec i s = .next t) : MainStep W s t := by
  have r := mainStep_refl W s
  cases i with
  | irqHandler | mainEntry | runPass | transportService | idleWait | deviceReset => cases hi
  | setup q => cases hi; exact absurd rfl hs
  | tick _ =>
    cases hi; exact mainStep_onPort h fun hl => mainStep_tick (hW (by simp [opKinds])) (hW (by simp [opKinds])) r hl
  | service _ =>
    cases hi; exact mainStep_onPort h fun hl => mainStep_service (hW (by simp [opKinds])) (hW (by simp [opKinds])) r hl
  | pollDisconnected _ =>
    cases hi; exact mainStep_onPort h fun hl => mainStep_pollDisconnected (hW (by simp [opKinds])) r hl
  | onAttach _ => cases hi; exact mainStep_onPort h fun hl => mainStep_onAttach (hW (by simp [opKinds])) r hl
  | tickVbusOn _ =>
    cases hi
    exact mainStep_onPort h fun _ => mainStep_tickVbusOn (hW (by simp [opKinds])) r fun _ => hW (by simp [opKinds])
  | debounce _ =>
    cases hi
    exact mainStep_onPort h fun _ => mainStep_debounce (hW (by simp [opKinds])) r fun _ => hW (by simp [opKinds])
  | tickReady _ => cases hi; exact mainStep_onPort h fun _ => mainStep_tickReady (hW (by simp [opKinds])) r
  | onTxComplete _ => cases hi; exact mainStep_onPort h fun _ => mainStep_onTxComplete (hW (by simp [opKinds])) r
  | disconnect _ => cases hi; exact mainStep_onPort h fun _ => mainStep_disconnect (hW (by simp [opKinds])) r
  | vbusOff _ => cases hi; exact mainStep_onPort h fun _ => mainStep_vbusOff (hW (by simp [opKinds])) r
  | onMessage _ m => cases hi; exact mainStep_onPort h fun _ => mainStep_onMessage (hW (by simp [opKinds])) r m
  | rxRequest _ m => cases hi; exact mainStep_onPort h fun _ => mainStep_rxRequest (hW (by simp [opKinds])) r m
  | rxVdm _ m => cases hi; exact mainStep_onPort h fun _ => mainStep_rxVdm (hW (by simp [opKinds])) r m
  | rxGetSinkCap _ m => cases hi; exact mainStep_onPort h fun _ => mainStep_rxGetSinkCap (hW (by simp [opKinds])) r m
  | vdmDiscoverIdentityReq _ m =>
    cases hi; exact mainStep_onPort h fun _ => mainStep_vdmDiscoverIdentityReq (hW (by simp [opKinds])) r m
  | txVdmSerialRoute _ => cases hi; exact mainStep_onPort h fun _ => mainStep_txVdmSerialRoute (hW (by simp [opKinds])) r
  | rxEmpty _ m => cases hi; exact mainStep_onPort h fun _ => mainStep_rxEmpty r p m
  | rxOther _ m => cases hi; exact mainStep_onPort h fun _ => mainStep_rxOther r p m
  | vdmOther _ m => cases hi; exact mainStep_onPort h fun _ => mainStep_vdmOther r p m
  | vdmDiscoverIdentityAck _ m => cases hi; exact mainStep_onPort h fun _ => mainStep_vdmDiscoverIdentityAck r p m
  | rxSourceCap _ m | rxPrSwap _ m | rxDrSwap _ m =>
    cases hi; exact mainStep_onPort h fun _ => mainStep_diag_tx (mainStep_diag r p) p _ _ _
  | txSourceCap _ | txRequest _ | txAccept _ | txReject _ | txPsRdy _ | txSinkCap _ | txProbe _ | txIdentityAck _
  | txVdmReboot _ | txVdmDfuHold _ | txVdmPdReset _ =>
    cases hi; exact mainStep_onPort h fun _ => mainStep_diag_tx r p _ _ _
  | evVbusGood _ => cases hi; exact mainStep_onPort h fun _ => mainStep_evVbusGood (hW (by simp [opKinds])) r
  | evHardReset _ => cases hi; exact mainStep_onPort h fun _ => mainStep_evHardReset (hW (by simp [opKinds])) r
  | evTxSuccess _ => cases hi; exact mainStep_onPort h fun _ => mainStep_evTxSuccess (hW (by simp [opKinds])) r
  | evMsgRx _ => cases hi; exact mainStep_onPort h fun _ => mainStep_evMsgRx (hW (by simp [opKinds])) r
  | rearm _ => cases hi; exact mainStep_onPort h fun hl => mainStep_rearm r hl
  | muxPump _ => cases hi; exact mainStep_onPort h fun hl => mainStep_muxPump hW r hl
  | pass _ b => cases hi; exact mainStep_onPort h fun _ => mainStep_uartPut (mainStep_diag r p) p b
  | escArm _ => cases hi; exact mainStep_onPort h fun _ => mainStep_escArm (hW (by simp [opKinds])) r
  | escLiteral _ =>
    cases hi; exact mainStep_onPort h fun _ => mainStep_uartPut (mainStep_diag_disarm (hW (by simp [opKinds])) r) p _
  | cmdRebootTarget _ | cmdDebugProbe _ =>
    cases hi; exact mainStep_onPort h fun _ => mainStep_diag_tx (mainStep_diag_disarm (hW (by simp [opKinds])) r) p _ _ _
  | cmdSelfReset _ => cases hi; exact mainStep_onPort h fun _ => mainStep_cmdSelfReset (hW (by simp [opKinds])) r
  | cmdFwUpdate _ => cases hi; exact mainStep_onPort h fun _ => mainStep_cmdFwUpdate (hW (by simp [opKinds])) r
  | cmdForceDisconnect _ =>
    cases hi
    exact mainStep_onPort h fun hl => mainStep_cmdForceDisconnect (hW (by simp [opKinds])) (hW (by simp [opKinds])) r hl
  | cmdToggleVerbose _ =>
    cases hi; exact mainStep_onPort h fun _ => mainStep_cmdToggleVerbose (hW (by simp [opKinds])) (hW (by simp [opKinds])) r
  | cmdRoute1 _ | cmdRoute2 _ =>
    cases hi; exact mainStep_onPort h fun _ => mainStep_selectRoute (hW (by simp [opKinds])) (hW (by simp [opKinds])) r _
  | cmdHelp _ => cases hi; exact mainStep_onPort h fun _ => mainStep_cmdHelp (hW (by simp [opKinds])) r
  | cmdDrop _ b => cases hi; exact mainStep_onPort h fun _ => mainStep_diag_disarm (hW (by simp [opKinds])) r
  | breakBegin _ x => cases hi; exact mainStep_onPort h fun _ => mainStep_outWrite_uartBreak (hW (by simp [opKinds])) r true
  | breakEnd _ x => cases hi; exact mainStep_onPort h fun _ => mainStep_outWrite_uartBreak (hW (by simp [opKinds])) r false
  | uartRxIrq q b => cases h; exact mainStep_uartReceive r q b
  | ringPut q b => exact mainStep_onPortIrq h (mainStep_ringPut r q b)
  | ringGet q => exact mainStep_onPort h fun _ => mainStep_ringGetOp r q
  | drainToHost q => exact mainStep_onPort h fun _ => mainStep_drainToHost r q

theorem mainStep_execRunPass (hW : ∀ p, passKinds ⊆ W p) (h : execRunPass s = .next t) : MainStep W s t := by
  unfold execRunPass at h
  split_ifs at h
  rw [stallOutcome_next h]
  exact mainStep_runPass hW (mainStep_refl W s)

/-- Every operation, but for the setups and the device reset, is a run of `MAIN` that writes only by its own kinds, and only
to its own port if it is of one (R20, R72). -/
theorem mainStep_exec {i : Instr} (hs : ∀ p, i ≠ .setup p) (hm : i ≠ .mainEntry) (hd : ∀ c, i ≠ .deviceReset c)
    (h : exec i s = .next t) : MainStep (portKinds i) s t := by
  cases hi : instrPort i with
  | some p => exact mainStep_exec_port hi (hs p) (portKinds_own hi ▸ List.Subset.refl _) h
  | none =>
    have hk := portKinds_global hi
    have r := mainStep_refl (portKinds i) s
    cases i with
    | irqHandler => cases h; exact mainStep_chipIrq r
    | idleWait => cases h; exact mainStep_idleWait r
    | runPass => exact mainStep_execRunPass (fun p => by rw [hk p]; exact List.Subset.refl _) h
    | transportService =>
      rw [stallOutcome_next h]
      exact mainStep_transportService (fun p => by simp [hk p, opKinds]) r
    | mainEntry => exact absurd rfl hm
    | deviceReset c => exact absurd rfl (hd c)
    | _ => cases hi

end

end Sys2Proof.Machine

/-! ## `SETUP`

It is no sequence of the writes above: it sets the whole record and arms the line of a port that is not live yet. -/

namespace Sys2Proof.Machine

section
variable {p q : Port} {s t v : State}

/-- Where the validations of `SETUP` of port `p` have led to from `s`, before their outcome is acted on: the two side
effects are done (R121, D10). -/
structure SetupBegun (p : Port) (s v : State) : Prop where
  boundary : ∀ q, BoundaryStep q s v
  regs : ∀ q, v.regs q = s.regs q
  out : ∀ q, v.out q =
    if q = p then { s.out q with indicator := s.cfg.indicatorLevel, vbus := .released } else s.out q

theorem setupBegun_point (h : SetupBegun p s v) : SetupBegun p s (point v) :=
  ⟨fun q => boundary_point (h.boundary q), fun q => by rw [point_regs, h.regs], fun q => by rw [point_out, h.out]⟩

theorem setupBegun_sideEffects (p : Port) (s : State) :
    SetupBegun p s (vbusOff p (outWrite p (.indicator (diag p s).cfg.indicatorLevel) (diag p s))) where
  boundary q := boundary_vbusOff (boundary_outWrite (boundary_diag (boundary_refl q s) p) p _) p
  regs q := by simp
  out q := by by_cases e : q = p <;> simp [writeOutput, e]

/-- `SETUP` begins, and then every field of the port is set, or one of the validations failed and it is absent (R121). -/
theorem setup_cases (p : Port) (s : State) : ∃ v, SetupBegun p s v ∧
    (setup p s = (setupPresent p v).updRegs p (fun r => { r with setUp := true }) ∨
      ∃ c, setup p s = (markAbsent p c v).updRegs p fun r => { r with setUp := true }) := by
  have h1 := setupBegun_point (setupBegun_sideEffects p s)
  have h2 := setupBegun_point h1
  unfold setup setupIdentify
  dsimp only
  split_ifs
  · exact ⟨_, h1, .inr ⟨_, rfl⟩⟩
  · exact ⟨_, h2, .inl rfl⟩
  · exact ⟨_, h2, .inr ⟨_, rfl⟩⟩

/-! ### The other port -/

theorem boundary_updRegs_other (h : BoundaryStep q s t) (e : q ≠ p) (f : PortRegs → PortRegs) :
    BoundaryStep q s (t.updRegs p f) := boundary_congr h (by simp) (by simp [State.live, e]) (by simp) (by simp)

theorem boundary_updShared_other (h : BoundaryStep q s t) (e : q ≠ p) (f : Shared → Shared) :
    BoundaryStep q s (t.updShared p f) := boundary_congr h (by simp) (by simp [State.live]) (by simp [e]) (by simp)

/-- The part of `SETUP` of a present port before the record and the ring are set (R121). -/
def setupConnect (p : Port) (s : State) : State :=
  let s := s.updRegs p fun r => { r with present := true }
  let s := tcpcReset p s
  let s := outWrite p (.rxEn false) s
  let s := outWrite p (.ccRole .srcSeek) s
  let s := outWrite p (.laneSwap false) s
  outWrite p (.srcSel .usbPins) s

/-- The part of `SETUP` of a present port from there to the arming of the line (R121). -/
def setupOutputs (p : Port) (s : State) : State :=
  let s := outWrite p (.vconn false) s
  let s := outWrite p (.chipPol .unset) s
  let s := outWrite p (.hdrRole .unset) s
  let s := outWrite p (.uartBreak false) s
  let s := outWrite p (.attachIrqArmed true) s
  diag p s

theorem setupPresent_eq (p : Port) (s : State) :
    setupPresent p s = (armLine p (setupOutputs p (setupFields p (setupConnect p s)))).updRegs p
      fun r => { r with ps := .disconnected } := rfl

theorem boundary_setupConnect (h : BoundaryStep q s (t.updRegs p fun r => { r with present := true })) :
    BoundaryStep q s (setupConnect p t) :=
  boundary_outWrite (boundary_outWrite (boundary_outWrite (boundary_outWrite (boundary_tcpcReset h p) p _) p _) p _) p _

theorem boundary_setupOutputs (h : BoundaryStep q s t) (p : Port) : BoundaryStep q s (setupOutputs p t) :=
  boundary_diag (boundary_outWrite (boundary_outWrite (boundary_outWrite (boundary_outWrite (boundary_outWrite h
    p _) p _) p _) p _) p _) p

theorem boundary_setupFields_other (h : BoundaryStep q s t) (e : q ≠ p) : BoundaryStep q s (setupFields p t) := by
  unfold setupFields
  exact boundary_updShared_other (boundary_updRegs_other h e _) e _

theorem boundary_setupPresent_other (h : BoundaryStep q s t) (e : q ≠ p) : BoundaryStep q s (setupPresent p t) := by
  rw [setupPresent_eq]
  have hf := boundary_setupFields_other (boundary_setupConnect (boundary_updRegs_other h e _)) e
  exact boundary_updRegs_other (boundary_updShared_other (boundary_setupOutputs hf p) e _) e _

theorem boundary_markAbsent_other (h : BoundaryStep q s t) (e : q ≠ p) (c : AbsenceCause) :
    BoundaryStep q s (markAbsent p c t) :=
  boundary_diag (boundary_raise (boundary_updShared_other (boundary_updRegs_other h e _) e _) _) p

theorem setupPresent_regs (p q : Port) (s : State) : (setupPresent p s).regs q =
    if q = p then { setUpRegs s.cfg with setUp := (s.regs q).setUp } else s.regs q := by
  by_cases e : q = p <;> simp [setupPresent_eq, setupOutputs, setupFields, setupConnect, armLine, setUpRegs, e]

theorem setupPresent_out (p q : Port) (s : State) : (setupPresent p s).out q =
    if q = p then { setUpOut s.cfg with vbus := (s.out q).vbus, indicator := (s.out q).indicator } else s.out q := by
  by_cases e : q = p <;>
    simp [setupPresent_eq, setupOutputs, setupFields, setupConnect, armLine, setUpOut, writeOutput, e]

theorem markAbsent_regs (p q : Port) (c : AbsenceCause) (s : State) : (markAbsent p c s).regs q =
    if q = p then { s.regs q with present := false } else s.regs q := by
  by_cases e : q = p <;> simp [markAbsent, e]

theorem markAbsent_out (p q : Port) (c : AbsenceCause) (s : State) : (markAbsent p c s).out q = s.out q := by
  simp [markAbsent]

/-- `SETUP` of a port leaves the record and the outputs of the other one alone (R20). -/
theorem setup_other (e : q ≠ p) (s : State) : (setup p s).regs q = s.regs q ∧ (setup p s).out q = s.out q := by
  obtain ⟨v, hv, h | ⟨c, h⟩⟩ := setup_cases p s <;> rw [h]
  · simp [setupPresent_regs, setupPresent_out, hv.regs, hv.out, e]
  · simp [markAbsent_regs, markAbsent_out, hv.regs, hv.out, e]

theorem boundary_setup_other (e : q ≠ p) (s : State) : BoundaryStep q s (setup p s) := by
  obtain ⟨v, hv, h | ⟨c, h⟩⟩ := setup_cases p s <;> rw [h]
  · exact boundary_updRegs_other (boundary_setupPresent_other (hv.boundary q) e) e _
  · exact boundary_updRegs_other (boundary_markAbsent_other (hv.boundary q) e c) e _

/-- `SETUP` of a port keeps the invariants of the other one. -/
theorem portInv_setup_other (e : q ≠ p) (h : PortInv s q) : PortInv (setup p s) q := by
  obtain ⟨hr, ho⟩ := setup_other e s
  exact portInv_of_boundary h (boundary_setup_other e s) (by rw [hr]) (by rw [hr]) (by rw [hr, ho]; exact policyInv_of_portInv h)

/-! ### The port itself -/

theorem setup_cfg (p : Port) (s : State) : (setup p s).cfg = s.cfg := by
  cases p with
  | p0 => exact (boundary_setup_other (q := .p1) (by decide) s).cfg
  | p1 => exact (boundary_setup_other (q := .p0) (by decide) s).cfg

/-- What a failed validation writes, before the condition is raised (R121, R241). -/
def clearAbsent (p : Port) (s : State) : State :=
  (s.updRegs p fun r => { r with present := false }).updShared p fun x => { x with irqEn := false, pending := false }

theorem boundary_markAbsent (p : Port) (c : AbsenceCause) (v : State) :
    BoundaryStep p (clearAbsent p v) (markAbsent p c v) := boundary_diag (boundary_raise (boundary_refl p _) _) p

/-- A port that `SETUP` found absent is inert: its line is not armed and nothing is pending (R29, R52). -/
theorem portInv_setup_absent (hm : Memory.wf (v.env p).tcpc = true) (hv : (v.out p).vbus = .released) (c : AbsenceCause) :
    PortInv ((markAbsent p c v).updRegs p fun r => { r with setUp := true }) p := by
  have hb := boundary_markAbsent p c v
  have hl : (clearAbsent p v).live p = false := by simp [clearAbsent, State.live]
  have hi := boundary_irqEn_false hb hl (by simp [clearAbsent])
  have hp := boundary_pending_false hb hl (by simp [clearAbsent]) (by simp [clearAbsent])
  have hm' := hb.memory (by simpa [clearAbsent] using hm)
  constructor <;> simp [State.live, markAbsent_regs, markAbsent_out, hi, hp, hm', hv]

/-- From the emptied ring on, nothing in `SETUP` leaves the ring ill formed (R52, R281). -/
theorem setupPresent_ring (p : Port) (v : State) :
    ((setupPresent p v).shared p).ring.wf (ringSlots (setupPresent p v).cfg) = true := by
  have hb := boundary_setupOutputs (boundary_refl p (setupFields p (setupConnect p v))) p
  have hS : 0 < ringSlots (setupConnect p v).cfg := Nat.succ_pos _
  have hw := hb.ring (by simpa [setupFields] using wf_emptyRing hS)
  rw [← hb.cfg] at hw
  simpa [setupPresent_eq, armLine] using hw

theorem setupPresent_memory (hn : (v.regs p).setUp = false) (hm : Memory.wf (v.env p).tcpc = true) :
    Memory.wf ((setupPresent p v).env p).tcpc = true := by
  have hc : BoundaryStep p v (setupConnect p v) :=
    boundary_setupConnect (boundary_updRegs (boundary_refl p v) p (by simp [State.live, hn]))
  have hb := boundary_setupOutputs (boundary_refl p (setupFields p (setupConnect p v))) p
  simpa [setupPresent_eq, armLine] using hb.memory (by simpa [setupFields] using hc.memory hm)

/-- The invariants of a port that passed both validations of `SETUP`. -/
theorem portInv_setup_present (hn : (v.regs p).setUp = false) (hm : Memory.wf (v.env p).tcpc = true)
    (hv : (v.out p).vbus = .released) :
    PortInv ((setupPresent p v).updRegs p fun r => { r with setUp := true }) p := by
  have hring := setupPresent_ring p v
  have hmem := setupPresent_memory hn hm
  constructor <;> simp [State.live, setupPresent_regs, setupPresent_out, setUpRegs, setUpOut, hring, hmem, hv]

/-- `SETUP` establishes the invariants of its port (R52). -/
theorem portInv_setup_own (hn : (s.regs p).setUp = false) (hm : Memory.wf (s.env p).tcpc = true) :
    PortInv (setup p s) p := by
  obtain ⟨v, hv, h⟩ := setup_cases p s
  have hn' : (v.regs p).setUp = false := by rw [hv.regs]; exact hn
  have hm' := (hv.boundary p).memory hm
  have hv' : (v.out p).vbus = .released := by simp [hv.out]
  obtain h | ⟨c, h⟩ := h <;> rw [h]
  · exact portInv_setup_present hn' hm' hv'
  · exact portInv_setup_absent hm' hv' c

theorem inv_setup (h : Inv s) (hn : (s.regs p).setUp = false) : Inv (setup p s) := by
  obtain ⟨hc, hp⟩ := h
  refine ⟨by rw [setup_cfg]; exact hc, fun q => ?_⟩
  by_cases e : q = p
  · subst e; exact portInv_setup_own hn (hp q).memory
  · exact portInv_setup_other e (hp q)

end

end Sys2Proof.Machine

/-! ## Every step keeps the invariants -/

namespace Sys2Proof.Machine

section
variable {W : Port → List WriteKind} {s t : State}

/-- A run of `MAIN` in which no counter counts while its port is disconnected keeps the invariants. -/
theorem inv_mainStep (hW : ∀ q, .looseCount ∉ W q) (h : MainStep W s t) (hs : Inv s) : Inv t := by
  obtain ⟨hc, hp⟩ := hs
  exact ⟨by rw [mainStep_cfg h]; exact hc, fun q => portInv_of_boundary (hp q) (h.boundary q) (mainStep_setUp h q)
    (mainStep_present h q) (policyInv_portWrites (hW q) (h.writes q) (policyInv_of_portInv (hp q)))⟩

/-- A run that writes to no record and no outputs keeps the invariants. -/
theorem inv_mainStep_nil (h : MainStep (fun _ => []) s t) (hs : Inv s) : Inv t :=
  inv_mainStep (fun _ => List.not_mem_nil) h hs

theorem inv_execMainEntry (hs : Inv s) (h : execMainEntry s = .next t) : Inv t := by
  unfold execMainEntry at h
  split_ifs at h with hn
  obtain ⟨h0, h1⟩ : (s.regs .p0).setUp = false ∧ (s.regs .p1).setUp = false := by simpa using hn
  rw [stallOutcome_next h]
  have hg := inv_mainStep_nil (mainStep_setHalt (mainStep_setWdogArmed (mainStep_refl _ s) false) .running) hs
  have hg0 := inv_setup (p := .p0) hg h0
  have hn1 := congrArg PortRegs.setUp (setup_other (p := .p0) (q := .p1) (by decide) ((s.setWdogArmed false).setHalt .running)).1
  have hg1 := inv_setup (p := .p1) hg0 (hn1.trans h1)
  exact inv_mainStep_nil (mainStep_setPos (mainStep_refl _ _) passStart) hg1

/-- A device reset establishes the invariants of a port from its register space alone (R281). -/
theorem inv_resetDevice (h : Inv s) : Inv (resetDevice s) := by
  obtain ⟨hc, hp⟩ := h
  refine ⟨hc, fun q => ?_⟩
  have hr : (resetDevice s).regs q = PortRegs.reset := by cases q <;> rfl
  have ho : (resetDevice s).out q = Outputs.reset := by cases q <;> rfl
  have hsh : (resetDevice s).shared q = Shared.reset (ringSlots s.cfg) := by cases q <;> rfl
  have he : (resetDevice s).env q = s.env q := by cases q <;> rfl
  constructor <;> simp [State.live, hr, ho, hsh, he, PortRegs.reset, Outputs.reset, Shared.reset, (hp q).memory]

theorem inv_settle (h : Inv s) : Inv (settle s) := by
  unfold settle
  split_ifs
  · exact inv_resetDevice h
  · exact h

/-- The operations that a step runs on a device that is set up (R46, R220, R222): no setup, no device reset, and none that
counts on a disconnected port. -/
structure RunsInPass (i : Instr) : Prop where
  notSetup : ∀ p, i ≠ .setup p
  notEntry : i ≠ .mainEntry
  notReset : ∀ c, i ≠ .deviceReset c
  counts : .looseCount ∉ opKinds i

theorem runsInPass_byteOp (p : Port) (o : ByteOp) : RunsInPass (o.instr p) := by
  cases o <;> constructor <;> simp [ByteOp.instr, opKinds]

theorem runsInPass_service (p : Port) : RunsInPass (.service p) := by constructor <;> simp [opKinds]
theorem runsInPass_drainToHost (p : Port) : RunsInPass (.drainToHost p) := by constructor <;> simp [opKinds]
theorem runsInPass_transportService : RunsInPass .transportService := by constructor <;> simp [opKinds]
theorem runsInPass_idleWait : RunsInPass .idleWait := by constructor <;> simp [opKinds]

/-- What `MAIN` does to select its next operation writes to no record and no outputs; the operation is `MAIN_ENTRY` or one of
a pass (R46, R220). -/
theorem fetch_cases (s : State) : MainStep (fun _ => []) s (fetch s).2 ∧
    ∀ i, (fetch s).1 = some i → i = .mainEntry ∨ RunsInPass i := by
  have r := mainStep_refl (fun _ => []) s
  unfold fetch
  split_ifs
  · exact ⟨r, fun i e => nomatch e⟩
  · exact ⟨mainStep_point r, fun i e => nomatch e⟩
  split
  next => exact ⟨r, fun i e => .inl (Option.some.inj e).symm⟩
  next p _ =>
    split_ifs
    · refine ⟨mainStep_takePending r p, fun i e => .inr ?_⟩
      dsimp only at e
      split_ifs at e
      cases e
      exact runsInPass_service p
    · exact ⟨mainStep_setPos r _, fun i e => nomatch e⟩
  next p _ =>
    split_ifs
    · have hg := mainStep_hostTryRecv (mainStep_point r) p
      split
      next b u e =>
        rw [e] at hg
        exact ⟨hg, fun i ei => .inr (Option.some.inj ei ▸ runsInPass_byteOp p _)⟩
      next u e =>
        rw [e] at hg
        exact ⟨mainStep_setPos hg _, fun i ei => .inr (Option.some.inj ei ▸ runsInPass_drainToHost p)⟩
    · exact ⟨mainStep_setPos r _, fun i e => nomatch e⟩
  next => exact ⟨mainStep_setPos r _, fun i e => .inr (Option.some.inj e ▸ runsInPass_transportService)⟩
  next => exact ⟨mainStep_idleTest r, fun i e => nomatch e⟩
  next => exact ⟨r, fun i e => .inr (Option.some.inj e ▸ runsInPass_idleWait)⟩

theorem inv_exec {i : Instr} (hi : i = .mainEntry ∨ RunsInPass i) (hs : Inv s) (h : exec i s = .next t) : Inv t := by
  obtain rfl | hi := hi
  · exact inv_execMainEntry hs h
  · exact inv_mainStep (fun q hq => hi.counts (portKinds_subset i q hq))
      (mainStep_exec hi.notSetup hi.notEntry hi.notReset h) hs

theorem settleOutcome_next {x : Host.Outcome State Fault Refusal} (h : settleOutcome x = .next t) :
    ∃ u, x = .next u ∧ t = settle u := by
  cases x with
  | next u => cases h; exact ⟨u, rfl, rfl⟩
  | fault r => cases h
  | refused r => cases h

end

/-- Settles O3: the selection, the operation and the device reset that may land inside it each keep the invariants. -/
theorem stepKeepsInvariant : Obligations.StepKeepsInvariant := by
  intro s t hs h
  obtain ⟨hf, hi⟩ := fetch_cases s
  have hu := inv_mainStep_nil hf hs
  unfold step at h
  split at h
  next u e =>
    obtain ⟨v, hv, rfl⟩ := settleOutcome_next h
    cases hv
    rw [e] at hu
    exact inv_settle hu
  next i u e =>
    obtain ⟨v, hv, rfl⟩ := settleOutcome_next h
    rw [e] at hu hi
    exact inv_settle (inv_exec (hi i rfl) hu hv)

end Sys2Proof.Machine

/-! ## Isolation of the ports and the writers of each field -/

namespace Sys2Proof.Machine

section
variable {i : Instr} {p q : Port} {s t : State}

/-- `SETUP` of a port answers what it computes, if it answers a next state. -/
theorem execSetup_next (h : execSetup p s = .next t) : t = setup p s := by
  unfold execSetup at h
  split_ifs at h
  exact stallOutcome_next h

theorem mainStep_nil (W : Port → List WriteKind) (h : MainStep W s t) (hq : W q = []) :
    t.regs q = s.regs q ∧ t.out q = s.out q := by
  have hw := h.writes q
  rw [hq] at hw
  exact Prod.ext_iff.1 (portWrites_nil hw)

/-- An operation of one port leaves the record and the outputs of every other one alone (R20, R259). -/
theorem exec_other (hi : instrPort i = some p) (e : q ≠ p) (h : exec i s = .next t) :
    t.regs q = s.regs q ∧ t.out q = s.out q := by
  by_cases hs : i = .setup p
  · subst hs
    rw [execSetup_next h]
    exact setup_other e s
  · exact mainStep_nil (W := portKinds i) (mainStep_exec_port hi hs (portKinds_own hi ▸ List.Subset.refl _) h)
      (portKinds_other hi e)

end

/-- Settles O56. -/
theorem portsAreIsolated : Obligations.PortsAreIsolated := fun _ _ _ _ _ hi e h => exec_other hi e h

/-! ### Which operations may write a kind -/

section
variable {i : Instr} {p q : Port} {k : WriteKind}

/-- An operation of one port writes to that port only. -/
theorem eq_of_mem_portKinds (hi : instrPort i = some p) (h : k ∈ portKinds i q) : q = p := by
  by_contra e
  rw [portKinds_other hi e] at h
  exact List.not_mem_nil h

theorem mem_of_attach (h : .attach ∈ portKinds i q) :
    i ∈ [.onAttach q, .pollDisconnected q, .tick q, .service q, .runPass] := by
  have hk := portKinds_subset i q h
  cases i with
  | onAttach p | pollDisconnected p | tick p | service p => simp [eq_of_mem_portKinds rfl h]
  | runPass => simp
  | _ => simp [opKinds, byteKinds] at hk

theorem mem_of_route (h : .route ∈ portKinds i q) : i ∈ [.cmdRoute1 q, .cmdRoute2 q, .muxPump q, .runPass] := by
  have hk := portKinds_subset i q h
  cases i with
  | cmdRoute1 p | cmdRoute2 p | muxPump p => simp [eq_of_mem_portKinds rfl h]
  | runPass => simp
  | _ => simp [opKinds] at hk

theorem mem_of_verbose (h : .verbose ∈ portKinds i q) : i ∈ [.cmdToggleVerbose q, .muxPump q, .runPass] := by
  have hk := portKinds_subset i q h
  cases i with
  | cmdToggleVerbose p | muxPump p => simp [eq_of_mem_portKinds rfl h]
  | runPass => simp
  | _ => simp [opKinds] at hk

theorem mem_of_esc (h : .esc ∈ portKinds i q) :
    i ∈ [.escArm q, .escLiteral q, .cmdRebootTarget q, .cmdSelfReset q, .cmdFwUpdate q, .cmdForceDisconnect q,
      .cmdToggleVerbose q, .cmdDebugProbe q, .cmdRoute1 q, .cmdRoute2 q, .cmdHelp q, .muxPump q, .runPass] ∨
    ∃ b, i = .cmdDrop q b := by
  have hk := portKinds_subset i q h
  cases i with
  | escArm p | escLiteral p | cmdRebootTarget p | cmdSelfReset p | cmdFwUpdate p | cmdForceDisconnect p
  | cmdToggleVerbose p | cmdDebugProbe p | cmdRoute1 p | cmdRoute2 p | cmdHelp p | muxPump p | cmdDrop p b =>
    simp [eq_of_mem_portKinds rfl h]
  | runPass => simp
  | _ => simp [opKinds] at hk

end

/-- A field that only the writes of kind `k` change, and that did change, shows that the run may make such writes. -/
theorem mem_of_field_ne {W : Port → List WriteKind} {s t : State} {q : Port} (h : MainStep W s t) {α : Type}
    {f : PortRegs → α} {k : WriteKind} (hf : ∀ x y, k ∉ W q → PortWrite (W q) x y → f y.1 = f x.1)
    (hne : f (t.regs q) ≠ f (s.regs q)) : k ∈ W q := by
  by_contra hk
  exact hne (portWrites_keep (f := fun x => f x.1) (fun x y => hf x y hk) (h.writes q))

/-- Settles O58: what an operation's kinds do not include, it does not change; `SETUP` of another port changes nothing. -/
theorem registerWriters : Obligations.RegisterWriters := by
  intro i q s t h hs hm hd
  by_cases ho : ∃ p, i = .setup p
  · obtain ⟨p, rfl⟩ := ho
    obtain ⟨hr, -⟩ := exec_other rfl (fun e : q = p => hs (e ▸ rfl)) h
    simp [hr]
  · have hw := mainStep_exec (fun p e => ho ⟨p, e⟩) hm hd h
    exact ⟨mainStep_present hw q, fun hne => mem_of_attach (mem_of_field_ne hw (fun _ _ => portWrite_pol) hne),
      fun hne => mem_of_route (mem_of_field_ne hw (fun _ _ => portWrite_route) hne),
      fun hne => mem_of_verbose (mem_of_field_ne hw (fun _ _ => portWrite_verbose) hne),
      fun hne => mem_of_esc (mem_of_field_ne hw (fun _ _ => portWrite_esc) hne)⟩

end Sys2Proof.Machine

/-! # The memory family: the two byte stores, and what an operation may do at the boundary of the ports -/

/-! ## The register space (R61) -/

namespace Sys2Proof.Machine

/-- The two bytes of a value, put together again (R61, R78). -/
theorem extractBytes_append (v : BitVec 16) : (v.extractLsb' 8 8 ++ v.extractLsb' 0 8 : BitVec 16) = v :=
  (BitVec.extractLsb'_append_extractLsb'_eq_extractLsb' rfl).trans BitVec.extractLsb'_eq_self

/-- A two-byte read after a two-byte write at the same address, in a memory of canonical form (R61). -/
theorem readReg16_writeReg16 {m : Memory} (h : Memory.wf m = true) (a : Nat) (v : BitVec 16) :
    readReg16 (writeReg16 m a v) a = v := by
  have hread : ∀ x y : Byte, readReg (writeReg (writeReg m a x) (a + 1) y) a = x ∧
      readReg (writeReg (writeReg m a x) (a + 1) y) (a + 1) = y := fun x y => by
    simp [readReg_writeReg, wf_writeReg, h]
  unfold readReg16 writeReg16
  dsimp only
  split <;> rw [(hread _ _).1, (hread _ _).2, extractBytes_append]

/-- Settles O60: each width by the read-after-write law of one byte. -/
theorem registerReadsBackWrite : Obligations.RegisterReadsBackWrite := fun m a b h =>
  ⟨fun v => ⟨readReg_writeReg m h a b v, wf_writeReg h a v⟩,
    fun v => ⟨readReg16_writeReg16 h a v, wf_writeReg16 h a v, fun h0 h1 => readReg_writeReg16_other m h0 h1 v⟩⟩

end Sys2Proof.Machine

/-! ## The ring (R70, R209, R210, R212) -/

namespace Sys2Proof.Machine

section
variable {S : Nat} {x : Ring}

/-- A slot counted from a cursor, without the modulus. -/
theorem add_mod_slots {r i : Nat} (hr : r < S) (hi : i < S) : (r + i) % S = if S ≤ r + i then r + i - S else r + i := by
  rw [Nat.add_mod_eq_ite, Nat.mod_eq_of_lt hr, Nat.mod_eq_of_lt hi]

theorem nextSlot_eq {i : Nat} (h : i < S) : nextSlot S i = if i + 1 = S then 0 else i + 1 := by
  unfold nextSlot
  split_ifs with e
  · rw [e, Nat.mod_self]
  · exact Nat.mod_eq_of_lt (by omega)

theorem ringCount_eq (h : x.wf S = true) : ringCount S x = if x.r ≤ x.w then x.w - x.r else x.w + S - x.r := by
  obtain ⟨-, hr, hw⟩ := (ring_wf_iff S x).1 h
  unfold ringCount
  split_ifs with e
  · rw [show x.w + S - x.r = x.w - x.r + S by omega, Nat.add_mod_right, Nat.mod_eq_of_lt (by omega)]
  · exact Nat.mod_eq_of_lt (by omega)

/-- The number of bytes held tells where the write cursor stands (R212). -/
theorem readCursor_add_ringCount (h : x.wf S = true) : (x.r + ringCount S x) % S = x.w := by
  have hn := ringCount_lt h
  obtain ⟨-, hr, hw⟩ := (ring_wf_iff S x).1 h
  rw [add_mod_slots hr hn]
  rw [ringCount_eq h] at *
  split_ifs <;> omega

/-- No slot that holds a byte is the one of the write cursor. -/
theorem readCursor_add_ne (h : x.wf S = true) {i : Nat} (hi : i < ringCount S x) : (x.r + i) % S ≠ x.w := by
  have hn := ringCount_lt h
  obtain ⟨-, hr, hw⟩ := (ring_wf_iff S x).1 h
  rw [add_mod_slots hr (by omega)]
  rw [ringCount_eq h] at *
  split_ifs at * <;> omega

/-- The write cursor meets the read cursor exactly in a ring that holds one byte for every slot but one (R209, R212). -/
theorem nextSlot_eq_readCursor (h : x.wf S = true) : nextSlot S x.w = x.r ↔ ringCount S x + 1 = S := by
  obtain ⟨-, hr, hw⟩ := (ring_wf_iff S x).1 h
  rw [nextSlot_eq hw, ringCount_eq h]
  split_ifs <;> omega

/-- The first `n` bytes from slot `r` of a buffer of `S` slots. -/
def slotsFrom (S : Nat) (buf : List Byte) (r n : Nat) : List Byte := (List.range n).map fun i => buf.getD ((r + i) % S) 0

theorem ringContents_eq_slotsFrom (S : Nat) (x : Ring) : ringContents S x = slotsFrom S x.buf x.r (ringCount S x) := rfl

/-- The bytes from the next slot are those from the slot without the first. -/
theorem slotsFrom_nextSlot (S : Nat) (buf : List Byte) (r n : Nat) :
    slotsFrom S buf (nextSlot S r) n = (slotsFrom S buf r (n + 1)).drop 1 := by
  simp only [slotsFrom, nextSlot, List.range_succ_eq_map, List.map_cons, List.map_map, List.drop_succ_cons, List.drop_zero]
  refine List.map_congr_left fun i _ => ?_
  simp only [Function.comp, Nat.mod_add_mod]
  congr 2
  omega

/-- From the read cursor on, a buffer in which the byte is stored at the write cursor has the bytes held and then it. -/
theorem slotsFrom_set (h : x.wf S = true) (b : Byte) :
    slotsFrom S (x.buf.set x.w b) x.r (ringCount S x + 1) = ringContents S x ++ [b] := by
  obtain ⟨hlen, -, hw⟩ := (ring_wf_iff S x).1 h
  simp only [slotsFrom, ringContents, List.range_succ, List.map_append, List.map_cons, List.map_nil]
  congr 1
  · refine List.map_congr_left fun i hi => ?_
    have hne := readCursor_add_ne h (List.mem_range.1 hi)
    simp [List.getD_eq_getElem?_getD, hne.symm]
  · rw [readCursor_add_ringCount h]
    simp [List.getD_eq_getElem?_getD, hlen, hw]

@[simp] theorem length_ringContents (S : Nat) (x : Ring) : (ringContents S x).length = ringCount S x := by simp [ringContents]

theorem ringCount_push (h : x.wf S = true) (b : Byte) :
    ringCount S (ringPush S b x) = if ringCount S x + 1 = S then ringCount S x else ringCount S x + 1 := by
  have hp := wf_ringPush h b
  obtain ⟨-, hr, hw⟩ := (ring_wf_iff S x).1 h
  rw [ringCount_eq hp]
  simp only [ringPush, nextSlot_eq hr, nextSlot_eq hw]
  rw [ringCount_eq h] at *
  split_ifs at * <;> omega

/-- A put appends the byte and drops the oldest one of a full ring (R70, R209). -/
theorem ringContents_push (h : x.wf S = true) (b : Byte) : ringContents S (ringPush S b x) =
    if ringCount S x + 1 = S then (ringContents S x ++ [b]).drop 1 else ringContents S x ++ [b] := by
  rw [ringContents_eq_slotsFrom, ringCount_push h, ← slotsFrom_set h]
  simp only [ringPush, nextSlot_eq_readCursor h]
  split_ifs
  · exact slotsFrom_nextSlot _ _ _ _
  · rfl

theorem ringPop_of_eq (h : x.r = x.w) : ringPop S x = (none, x) := by simp [ringPop, h]

theorem ringPop_fst (h : x.r ≠ x.w) : (ringPop S x).1 = some (x.buf.getD x.r 0) := by simp [ringPop, h]

/-- A get returns the first of the bytes held and leaves the rest (R70, R210). -/
theorem ringPop_of_cons (h : x.wf S = true) {b : Byte} {rest : List Byte} (hc : ringContents S x = b :: rest) :
    (ringPop S x).1 = some b ∧ ringContents S (ringPop S x).2 = rest := by
  have hne : x.r ≠ x.w := fun e => by simp [(ringContents_eq_nil h).2 e] at hc
  rw [ringContents_pop h hne] at hc
  obtain ⟨hb, hrest⟩ := List.cons.inj hc
  exact ⟨(ringPop_fst hne).trans (congrArg some hb), hrest⟩

end

/-- Settles O49: the cursors count one slot more than the ring may hold. -/
theorem ringIsBoundedFifo : Obligations.RingIsBoundedFifo := by
  intro c x b h
  have hlt := ringCount_lt h
  refine ⟨?_, wf_ringPush h b, wf_ringPop h, ?_, fun e => ringPop_of_eq ((ringContents_eq_nil h).1 e),
    fun _ _ e => ringPop_of_cons h e⟩
  · rw [length_ringContents]
    exact Nat.le_of_lt_succ hlt
  · have hfull : ringCount (ringSlots c) x + 1 = ringSlots c ↔ ¬ ringCount (ringSlots c) x < c.ringCap := by
      have hslots : ringSlots c = c.ringCap + 1 := rfl
      omega
    rw [ringContents_push h, length_ringContents]
    simp only [hfull, ite_not]

end Sys2Proof.Machine

/-! ## What an operation of one port does at the boundary

`BoundaryStep` says what stays well formed there. Here every operation but an entry, a pass and a device reset is cut into
single acts, each one that an operation of its port may do (`acts_exec_port`, `acts_exec_global`); what no such act changes,
no operation changes. -/

namespace Sys2Proof.Machine

/-- Acts at the boundary that only some operations do: rewriting the chip's registers (R62, R64), and what only `SETUP` does to
the record and the shared fields (R121). -/
inductive ActKind
  | chip
  | setUp
deriving DecidableEq

/-- A step of the block that changes nothing at the boundary, makes no port live or dead and restarts nothing. -/
structure InnerStep (s t : State) : Prop where
  live : ∀ q, t.live q = s.live q
  shared : ∀ q, t.shared q = s.shared q
  env : ∀ q, t.env q = s.env q
  sched : t.sched = s.sched
  running : running t = true → running s = true

/-- One act of an operation of port `p`, with the kinds `L` beyond those that every operation may do: an interrupt point, one
run of the handler, a step inside the block, or a write to the boundary of port `p`. -/
inductive Act (L : List ActKind) (p : Port) : State → State → Prop
  | point (s : State) : Act L p s (point s)
  | handler (s : State) : Act L p s (chipIrq s)
  | inner {s t : State} (h : InnerStep s t) : Act L p s t
  | shared (s : State) (f : Shared → Shared) (hf : ∀ x, x.pending = true → (f x).pending = true) : Act L p s (s.updShared p f)
  | env (s : State) (f : EnvPort → EnvPort) (hf : ∀ e, (f e).tcpc = e.tcpc) : Act L p s (s.updEnv p f)
  | chip (hL : .chip ∈ L) (s : State) (f : EnvPort → EnvPort) : Act L p s (s.updEnv p f)
  | setUpRegs (hL : .setUp ∈ L) (s : State) (f : PortRegs → PortRegs) : Act L p s (s.updRegs p f)
  | setUpShared (hL : .setUp ∈ L) (s : State) (f : Shared → Shared) : Act L p s (s.updShared p f)

/-- A sequence of such acts. -/
def Acts (L : List ActKind) (p : Port) : State → State → Prop := Relation.ReflTransGen (Act L p)

section
variable {L : List ActKind} {p : Port} {s t u : State}

theorem acts_refl (L : List ActKind) (p : Port) (s : State) : Acts L p s s := .refl

/-! ### Primitives -/

theorem acts_point (h : Acts L p s t) : Acts L p s (point t) := .tail h (.point t)
theorem acts_chipIrq (h : Acts L p s t) : Acts L p s (chipIrq t) := .tail h (.handler t)
theorem acts_inner (h : Acts L p s t) (hi : InnerStep t u) : Acts L p s u := .tail h (.inner hi)

theorem acts_updRegs (h : Acts L p s t) (q : Port) {f : PortRegs → PortRegs}
    (hf : ((f (t.regs q)).setUp && (f (t.regs q)).present) = t.live q) : Acts L p s (t.updRegs q f) := by
  refine acts_inner h ⟨fun r => ?_, by simp, by simp, by simp, fun hr => by simpa [running] using hr⟩
  by_cases e : r = q
  · subst e; simpa [State.live] using hf
  · simp [State.live, e]

theorem acts_updOut (h : Acts L p s t) (q : Port) (f : Outputs → Outputs) : Acts L p s (t.updOut q f) :=
  acts_inner h ⟨by simp [State.live], by simp, by simp, by simp, fun hr => by simpa [running] using hr⟩

/-- A step that changes only globals that neither the boundary nor the interrupts speak of. -/
theorem acts_congr (h : Acts L p s t) (hp : ∀ q, u.port q = t.port q) (hs : u.sched = t.sched) (hr : u.halt = t.halt) :
    Acts L p s u := by
  refine acts_inner h ⟨fun q => ?_, fun q => congrArg PortState.shared (hp q), fun q => congrArg PortState.env (hp q), hs,
    fun h => ?_⟩
  · exact congrArg (fun x => x.regs.setUp && x.regs.present) (hp q)
  · simpa [running, hr] using h

theorem acts_setTrace (h : Acts L p s t) (x : List Event) : Acts L p s (t.setTrace x) :=
  acts_congr h (fun _ => rfl) rfl rfl
theorem acts_setFreeCtr (h : Acts L p s t) (x : Nat) : Acts L p s (t.setFreeCtr x) := acts_congr h (fun _ => rfl) rfl rfl
theorem acts_setPos (h : Acts L p s t) (x : MainPos) : Acts L p s (t.setPos x) := acts_congr h (fun _ => rfl) rfl rfl
theorem acts_setWake (h : Acts L p s t) (x : Bool) : Acts L p s (t.setWake x) := acts_congr h (fun _ => rfl) rfl rfl
theorem acts_setCalls (h : Acts L p s t) (x : List BreakCall) : Acts L p s (t.setCalls x) :=
  acts_congr h (fun _ => rfl) rfl rfl
theorem acts_setRet (h : Acts L p s t) (x : Option Byte) : Acts L p s (t.setRet x) := acts_congr h (fun _ => rfl) rfl rfl
theorem acts_setWdogArmed (h : Acts L p s t) (x : Bool) : Acts L p s (t.setWdogArmed x) :=
  acts_congr h (fun _ => rfl) rfl rfl

/-- A halt stops the handlers and starts none (R226). -/
theorem acts_setHalt_fwUpdate (h : Acts L p s t) : Acts L p s (t.setHalt .fwUpdate) :=
  acts_inner h ⟨by simp [State.live], by simp, by simp, by simp, fun hr => by simp [running] at hr⟩

theorem acts_setPending (h : Acts L p s t) : Acts L p s (setPending p t) := .tail h (.shared _ _ fun _ _ => rfl)
theorem acts_armLine (h : Acts L p s t) : Acts L p s (armLine p t) := .tail h (.shared _ _ fun _ hx => hx)
theorem acts_ringPut (h : Acts L p s t) (b : Byte) : Acts L p s (ringPut p b t) := .tail h (.shared _ _ fun _ hx => hx)
theorem acts_ringGet (h : Acts L p s t) : Acts L p s (ringGet p t).2 := by
  simp only [ringGet]
  exact .tail h (.shared _ _ fun _ hx => hx)

theorem acts_uartReceive (h : Acts L p s t) (b : Byte) : Acts L p s (uartReceive p b t) := by
  unfold uartReceive
  split_ifs
  · exact acts_setWake (acts_ringPut h b) true
  · exact h

theorem acts_effect (h : Acts L p s t) {f : State → State} (hf : Acts L p s (f t)) : Acts L p s (effect f t) := by
  unfold effect
  split_ifs <;> assumption

theorem acts_emit (h : Acts L p s t) (e : Event) : Acts L p s (emit e t) := acts_effect h (acts_setTrace h _)

theorem acts_delay (h : Acts L p s t) (q : Port) (d : DelayKind) : Acts L p s (delay q d t) := acts_emit (acts_point h) _

theorem acts_uartPut (h : Acts L p s t) (q : Port) (b : Byte) : Acts L p s (uartPut q b t) := acts_emit (acts_point h) _

theorem acts_outWrite (h : Acts L p s t) (q : Port) (w : OutWrite) : Acts L p s (outWrite q w t) :=
  acts_emit (acts_updOut (acts_point h) q _) _

theorem acts_outWrite_if (h : Acts L p s t) (c : Bool) (q : Port) (w : OutWrite) :
    Acts L p s (if c then outWrite q w t else t) := by
  split_ifs
  · exact acts_outWrite h q w
  · exact h

theorem acts_outWritePair (h : Acts L p s t) (q : Port) (v w : OutWrite) : Acts L p s (outWritePair q v w t) :=
  acts_emit (acts_emit (acts_updOut (acts_point h) q _) _) _

theorem acts_tcpcReset (hC : .chip ∈ L) (h : Acts L p s t) : Acts L p s (tcpcReset p t) :=
  acts_emit (acts_effect (acts_point h) (.tail (acts_point h) (.chip hC _ _))) _

theorem acts_intStatusReadClear (hC : .chip ∈ L) (h : Acts L p s t) : Acts L p s (intStatusReadClear p t).2 := by
  simp only [intStatusReadClear]
  exact acts_effect (acts_point h) (.tail (acts_point h) (.chip hC _ _))

theorem acts_rxGet (h : Acts L p s t) : Acts L p s (rxGet p t).2 := by
  unfold rxGet
  split_ifs
  · exact h
  · split <;> dsimp only
    · exact h
    · exact .tail h (.env _ _ fun _ => rfl)

theorem acts_hostTryRecv (h : Acts L p s t) : Acts L p s (hostTryRecv p t).2 := by
  unfold hostTryRecv
  split_ifs
  · exact h
  · split <;> dsimp only
    · exact h
    · exact .tail h (.env _ _ fun _ => rfl)

theorem acts_sendBytes (h : Acts L p s t) (q : Port) (e : Event) (n : Nat) (ms : List (List EnvMove)) (k : Nat) :
    Acts L p s (sendBytes q e n ms k t) := by
  induction ms generalizing k t with
  | nil =>
    unfold sendBytes
    split_ifs
    · exact acts_setTrace h _
    · exact acts_setTrace h _
    · exact acts_congr h (fun _ => rfl) rfl rfl
  | cons m ms ih =>
    unfold sendBytes
    split_ifs
    · exact acts_setTrace h _
    · exact ih (acts_point h) _
    · exact acts_setTrace h _
    · exact ih (acts_point h) _

theorem acts_hostSend (h : Acts L p s t) (q : Port) (e : Event) : Acts L p s (hostSend q e t) := by
  unfold hostSend
  dsimp only
  split_ifs
  · exact acts_point h
  · exact acts_sendBytes (acts_point h) _ _ _ _ _

theorem acts_logLine (h : Acts L p s t) (q : Port) (l : LogBody) : Acts L p s (logLine q l t) := by
  unfold logLine
  split_ifs
  · exact h
  · exact acts_hostSend h q _

theorem acts_diagLines (h : Acts L p s t) (q : Port) (ts : List (List Byte)) :
    Acts L p s (ts.foldl (fun s x => logLine q (.diag x) s) t) := by
  induction ts generalizing t with
  | nil => exact h
  | cons x ts ih => exact ih (acts_logLine h q _)

theorem acts_diag (h : Acts L p s t) (q : Port) : Acts L p s (diag q t) := by
  unfold diag
  split_ifs
  · exact acts_diagLines (acts_setFreeCtr h _) q _
  · exact h

theorem acts_raise (h : Acts L p s t) (c : Condition) : Acts L p s (raise c t) := by
  cases c with
  | transientNoise q n => exact h
  | hardFailure q c => exact acts_emit h _
  | operatorFatal c => exact acts_emit h _
  | absence q c => exact acts_logLine (acts_emit h _) q _
  | protocolViolationMsg q m => exact acts_logLine (acts_emit h _) q _
  | protocolViolationVdm q m => exact acts_logLine (acts_emit h _) q _

theorem acts_drawRoles (h : Acts L p s t) (q : Port) : Acts L p s (drawRoles q t) := by
  unfold drawRoles
  split
  · exact h
  · exact acts_setFreeCtr h _

theorem acts_tx (h : Acts L p s t) (q : Port) (k : TxKind) (c : MsgCode) (o : Objs) : Acts L p s (tx q k c o t) :=
  acts_emit (acts_drawRoles (acts_point h) q) _

/-- Every transmit operation of R150 to R163 is the optional `DIAG` lines and one `Tx`. -/
theorem acts_diag_tx (h : Acts L p s t) (q : Port) (k : TxKind) (c : MsgCode) (o : Objs) :
    Acts L p s (tx q k c o (diag q t)) := acts_tx (acts_diag h q) q k c o

theorem acts_txVdmSerialRoute (h : Acts L p s t) (q : Port) : Acts L p s (txVdmSerialRoute q t) :=
  acts_outWritePair (acts_diag_tx h q _ _ _) q _ _

/-! ### Policy engine -/

theorem acts_enter (h : Acts L p s t) (x : PolicyState) : Acts L p s (t.updRegs p fun r => { r with ps := x }) :=
  acts_updRegs h p rfl

theorem acts_vbusOff (h : Acts L p s t) (q : Port) : Acts L p s (vbusOff q t) :=
  acts_outWrite (acts_delay (acts_outWrite (acts_diag h q) q _) q _) q _

theorem acts_disconnect (h : Acts L p s t) (q : Port) : Acts L p s (disconnect q t) :=
  acts_updRegs (acts_outWrite (acts_outWrite (acts_outWrite (acts_vbusOff (acts_diag h q) q) q _) q _) q _) q
    (f := disconnectedRegs) rfl

theorem acts_attach (hC : .chip ∈ L) (h : Acts L p s t) (cc : Nat × Nat) : Acts L p s (attach p cc t) := by
  have h1 := acts_outWrite (acts_outWrite (acts_tcpcReset hC h) p (.hdrRole .source)) p (.vconn false)
  have h2 := acts_outWrite (acts_updRegs h1 p (f := fun r => { r with pol := selectPolarity cc }) rfl) p
    (.chipPol (chipPolOf (selectPolarity cc)))
  have h3 := acts_outWrite (acts_outWrite (acts_outWrite_if h2 (wantVconn cc) p (.vconn true)) p (.rxEn true)) p (.vbus .on)
  exact acts_diag_tx (acts_enter h3 .dfpVbusOn) p _ _ _

theorem acts_onAttach (hC : .chip ∈ L) (h : Acts L p s t) : Acts L p s (onAttach p t) := by
  have hp := acts_point (acts_diag h p)
  unfold onAttach
  dsimp only
  split_ifs
  · exact acts_attach hC hp _
  · exact acts_raise hp _

theorem acts_pollDisconnected (hC : .chip ∈ L) (h : Acts L p s t) : Acts L p s (pollDisconnected p t) := by
  have hp := acts_point (acts_diag h p)
  unfold pollDisconnected
  dsimp only
  split_ifs
  · exact acts_onAttach hC hp
  · exact acts_delay hp p _

theorem acts_tickVbusOn (h : Acts L p s t) : Acts L p s (tickVbusOn p t) := by
  have hn := acts_updRegs (acts_diag h p) p (f := fun r => { r with sct := r.sct + 1 }) rfl
  unfold tickVbusOn
  dsimp only
  split_ifs
  · exact acts_updRegs (acts_diag_tx (acts_diag_tx hn p _ _ _) p _ _ _) p (by rfl)
  · exact hn

theorem acts_tickReady (h : Acts L p s t) : Acts L p s (tickReady p t) := acts_enter (acts_diag h p) .idle

theorem acts_debounce (h : Acts L p s t) : Acts L p s (debounce p t) := by
  have hd := acts_point (acts_diag h p)
  have hn := acts_updRegs hd p (f := fun r => { r with deb := r.deb + 1 }) rfl
  unfold debounce
  dsimp only
  split_ifs
  · exact acts_disconnect hn p
  · exact acts_raise hn _
  · exact acts_updRegs hd p rfl

theorem acts_tickState (hC : .chip ∈ L) (h : Acts L p s t) : Acts L p s (tickState p t) := by
  unfold tickState
  split
  next => exact acts_pollDisconnected hC h
  next => exact acts_tickVbusOn h
  next => exact acts_tickReady h
  all_goals exact h

theorem acts_tick (hC : .chip ∈ L) (h : Acts L p s t) : Acts L p s (tick p t) := by
  have hd := acts_tickState hC (acts_diag h p)
  unfold tick
  dsimp only
  split_ifs
  · exact hd
  · exact acts_debounce hd

theorem acts_onTxComplete (h : Acts L p s t) : Acts L p s (onTxComplete p t) := by
  have hd := acts_diag h p
  unfold onTxComplete
  dsimp only
  split
  next => exact acts_txVdmSerialRoute (acts_enter hd .dfpConnected) p
  next => exact acts_enter (acts_diag_tx hd p _ _ _) .idle
  all_goals exact hd

/-! ### Messages -/

theorem acts_vdmDiscoverIdentityAck (h : Acts L p s t) (m : Msg) : Acts L p s (vdmDiscoverIdentityAck p m t) := by
  have hd := acts_diag h p
  unfold vdmDiscoverIdentityAck
  dsimp only
  split_ifs
  · exact acts_logLine (acts_setFreeCtr hd _) p _
  · exact acts_setFreeCtr hd _
  · exact hd

/-- A reply that advances the policy state: the `DIAG` lines of the message's operation and of the transmit operation, the
transmission, and the new state (R142, R144, R158). -/
theorem acts_reply (h : Acts L p s t) (k : TxKind) (c : MsgCode) (o : Objs) (x : PolicyState) :
    Acts L p s ((tx p k c o (diag p (diag p t))).updRegs p fun r => { r with ps := x }) :=
  acts_enter (acts_diag_tx (acts_diag h p) p k c o) x

theorem acts_diag_raise (h : Acts L p s t) (c : Condition) : Acts L p s (raise c (diag p t)) := acts_raise (acts_diag h p) c

theorem acts_rxVdm (h : Acts L p s t) (m : Msg) : Acts L p s (rxVdm p m t) := by
  have hd := acts_diag h p
  unfold rxVdm
  dsimp only
  split
  next => exact acts_reply hd _ _ _ .ready
  next => exact acts_vdmDiscoverIdentityAck hd m
  next => exact acts_diag_raise hd _

theorem acts_runRxOp (h : Acts L p s t) (o : RxOp) : Acts L p s (runRxOp p o t) := by
  cases o with
  | empty r => exact acts_diag_raise h (.transientNoise p .emptyRx)
  | sourceCap m | prSwap m | drSwap m => exact acts_diag_tx (acts_diag h p) p _ _ _
  | request m => exact acts_reply h _ _ _ .dfpAccept
  | vendorDefined m => exact acts_rxVdm h m
  | getSinkCap m => exact acts_reply h _ _ _ .ready
  | other m => exact acts_diag_raise h (.protocolViolationMsg p m)

theorem acts_onMessage (h : Acts L p s t) (m : RxRecord) : Acts L p s (onMessage p m t) := acts_runRxOp (acts_diag h p) _

/-! ### Event dispatcher -/

theorem acts_evVbusGood (h : Acts L p s t) : Acts L p s (evVbusGood p t) := by
  have hp := acts_point (acts_diag h p)
  unfold evVbusGood
  dsimp only
  split_ifs
  · exact acts_diag_tx (acts_diag_tx hp p _ _ _) p _ _ _
  · exact acts_disconnect (acts_raise hp _) p

theorem acts_evHardReset (h : Acts L p s t) : Acts L p s (evHardReset p t) := acts_disconnect (acts_diag_raise h _) p

theorem acts_drainRxOnce (h : Acts L p s t) (hu : drainRxOnce p t = some u) : Acts L p s u := by
  have hg := acts_rxGet (acts_point (acts_point h))
  unfold drainRxOnce at hu
  dsimp only at hu
  split_ifs at hu
  split at hu <;> cases hu
  next m v e => rw [e] at hg; exact acts_onMessage hg m
  next e => rw [e] at hg; exact hg

theorem acts_drainRx (h : Acts L p s t) (n : Nat) : Acts L p s (drainRx p n t) := by
  induction n generalizing t with
  | zero => exact h
  | succ n ih =>
    unfold drainRx
    split
    next e => exact ih (acts_drainRxOnce h e)
    next => exact acts_point h

theorem acts_evMsgRx (h : Acts L p s t) : Acts L p s (evMsgRx p t) := acts_drainRx (acts_diag h p) _

theorem acts_runEvent (h : Acts L p s t) (k : EvKind) : Acts L p s (runEvent p k t) := by
  cases k with
  | vbusGood => exact acts_evVbusGood h
  | hardReset => exact acts_evHardReset h
  | txSuccess => exact acts_onTxComplete (acts_diag h p)
  | msgRx => exact acts_evMsgRx h

theorem acts_runEvents (h : Acts L p s t) (ks : List EvKind) : Acts L p s (runEvents p ks t) := by
  induction ks generalizing t with
  | nil => exact h
  | cons k ks ih => exact ih (acts_runEvent h k)

theorem acts_rearm (h : Acts L p s t) : Acts L p s (rearm p t) := acts_armLine (acts_diag h p)

theorem acts_service (hC : .chip ∈ L) (h : Acts L p s t) : Acts L p s (service p t) :=
  acts_rearm (acts_tick hC (acts_runEvents (acts_intStatusReadClear hC (acts_diag h p)) _))

/-! ### Multiplexer -/

/-- What every armed-mode operation starts with (R190, R205). -/
theorem acts_diag_disarm (h : Acts L p s t) : Acts L p s (diag p (disarmEscape p t)) := acts_diag (acts_updRegs h p rfl) p

theorem acts_escArm (h : Acts L p s t) : Acts L p s (escArm p t) := acts_updRegs (acts_diag h p) p (f := fun r => { r with esc := true }) rfl

theorem acts_cmdSelfReset (h : Acts L p s t) : Acts L p s (cmdSelfReset p t) :=
  acts_raise (acts_setWdogArmed (acts_diag_disarm h) _) _

theorem acts_cmdFwUpdate (h : Acts L p s t) : Acts L p s (cmdFwUpdate p t) :=
  acts_raise (acts_setHalt_fwUpdate (acts_diag_disarm h)) _

theorem acts_cmdForceDisconnect (h : Acts L p s t) : Acts L p s (cmdForceDisconnect p t) :=
  acts_disconnect (acts_setPending (acts_diag_disarm h)) p

theorem acts_cmdToggleVerbose (h : Acts L p s t) : Acts L p s (cmdToggleVerbose p t) :=
  acts_diag (acts_updRegs (acts_diag_disarm h) p rfl) p

theorem acts_selectRoute (h : Acts L p s t) (r : Route) : Acts L p s (selectRoute p r t) :=
  acts_diag_tx (acts_updRegs (acts_diag_disarm h) p rfl) p _ _ _

theorem acts_cmdHelp (h : Acts L p s t) : Acts L p s (cmdHelp p t) := acts_logLine (acts_diag_disarm h) p _

theorem acts_uartBreak (h : Acts L p s t) (q : Port) (b : Bool) : Acts L p s (outWrite q (.uartBreak b) (diag q t)) :=
  acts_outWrite (acts_diag h q) q _

theorem acts_ringGetOp (h : Acts L p s t) : Acts L p s (ringGetOp p t) := acts_diag (acts_setRet (acts_ringGet h) _) p

theorem acts_drainRing (h : Acts L p s t) (n : Nat) : Acts L p s (drainRing p n t) := by
  induction n generalizing t with
  | zero => exact h
  | succ n ih =>
    have hg := acts_ringGet (acts_point h)
    unfold drainRing
    split
    next u e => rw [e] at hg; exact acts_diag hg p
    next b u e => rw [e] at hg; exact ih (acts_hostSend (acts_diag hg p) p _)

theorem acts_drainToHost (h : Acts L p s t) : Acts L p s (drainToHost p t) := acts_drainRing (acts_diag h p) _

theorem acts_runByteOp (h : Acts L p s t) (o : ByteOp) : Acts L p s (runByteOp p o t) := by
  cases o with
  | pass b => exact acts_uartPut (acts_diag h p) p b
  | escArm => exact acts_escArm h
  | escLiteral => exact acts_uartPut (acts_diag_disarm h) p _
  | cmdRebootTarget | cmdDebugProbe => exact acts_diag_tx (acts_diag_disarm h) p _ _ _
  | cmdSelfReset => exact acts_cmdSelfReset h
  | cmdFwUpdate => exact acts_cmdFwUpdate h
  | cmdForceDisconnect => exact acts_cmdForceDisconnect h
  | cmdToggleVerbose => exact acts_cmdToggleVerbose h
  | cmdRoute1 | cmdRoute2 => exact acts_selectRoute h _
  | cmdHelp => exact acts_cmdHelp h
  | cmdDrop b => exact acts_diag_disarm h

theorem acts_pumpLoop (h : Acts L p s t) (n : Nat) : Acts L p s (pumpLoop p n t) := by
  induction n generalizing t with
  | zero => exact h
  | succ n ih =>
    have hg := acts_hostTryRecv (acts_point h)
    unfold pumpLoop
    split
    next u e => rw [e] at hg; exact acts_drainToHost hg
    next b u e =>
      rw [e] at hg
      have hb : Acts L p s (muxByte p b u) := acts_runByteOp hg _
      dsimp only
      split_ifs
      · exact ih hb
      · exact hb

/-! ### Run loop -/

theorem acts_deliverBreak (h : Acts L p s t) (c : BreakCall) : Acts L p s (deliverBreak c t) := by
  unfold deliverBreak
  split_ifs
  · exact acts_uartBreak h _ true
  · exact acts_uartBreak h _ false
  · exact h

theorem acts_deliverCalls (h : Acts L p s t) (n : Nat) : Acts L p s (deliverCalls n t) := by
  induction n generalizing t with
  | zero => exact h
  | succ n ih =>
    unfold deliverCalls
    split_ifs
    · exact h
    · split
      · exact h
      · exact ih (acts_deliverBreak (acts_setCalls h _) _)

theorem acts_transportService (h : Acts L p s t) : Acts L p s (transportService t) := acts_deliverCalls (acts_point h) _

theorem acts_idleWait (h : Acts L p s t) : Acts L p s (idleWait t) := by
  unfold idleWait
  dsimp only
  split_ifs
  · exact acts_setPos (acts_setWake (acts_point h) _) _
  · exact acts_setPos (acts_point h) _

/-! ### `SETUP` -/

theorem acts_markAbsent (hS : .setUp ∈ L) (h : Acts L p s t) (c : AbsenceCause) : Acts L p s (markAbsent p c t) :=
  acts_diag (acts_raise (.tail (.tail h (.setUpRegs hS _ _)) (.setUpShared hS _ _)) _) p

theorem acts_setupConnect (hC : .chip ∈ L) (hS : .setUp ∈ L) (h : Acts L p s t) : Acts L p s (setupConnect p t) :=
  acts_outWrite (acts_outWrite (acts_outWrite (acts_outWrite (acts_tcpcReset hC (.tail h (.setUpRegs hS _ _)))
    p _) p _) p _) p _

theorem acts_setupOutputs (h : Acts L p s t) : Acts L p s (setupOutputs p t) :=
  acts_diag (acts_outWrite (acts_outWrite (acts_outWrite (acts_outWrite (acts_outWrite h p _) p _) p _) p _) p _) p

theorem acts_setupPresent (hC : .chip ∈ L) (hS : .setUp ∈ L) (h : Acts L p s t) : Acts L p s (setupPresent p t) := by
  have hf : Acts L p s (setupFields p (setupConnect p t)) := by
    unfold setupFields
    exact .tail (.tail (acts_setupConnect hC hS h) (.setUpRegs hS _ _)) (.setUpShared hS _ _)
  rw [setupPresent_eq]
  exact acts_enter (acts_armLine (acts_setupOutputs hf)) .disconnected

theorem acts_setup (hC : .chip ∈ L) (hS : .setUp ∈ L) (h : Acts L p s t) : Acts L p s (setup p t) := by
  have h1 := acts_point (acts_vbusOff (acts_outWrite (acts_diag h p) p (.indicator (diag p t).cfg.indicatorLevel)) p)
  have h2 := acts_point h1
  unfold setup setupIdentify
  dsimp only
  refine .tail ?_ (.setUpRegs hS _ _)
  split_ifs
  · exact acts_markAbsent hS h1 _
  · exact acts_setupPresent hC hS h2
  · exact acts_markAbsent hS h2 _

end

/-! ### Every operation -/

/-- The kinds of acts of an operation beyond those that every operation may do. -/
def actKinds : Instr → List ActKind
  | .setup _ => [.chip, .setUp]
  | .onAttach _ | .pollDisconnected _ | .tick _ | .service _ => [.chip]
  | _ => []

section
variable {L : List ActKind} {p : Port} {s t : State} {i : Instr}

theorem acts_onPort {f : State → State} (h : onPort p f s = .next t) (hf : Acts L p s (f s)) : Acts L p s t := by
  obtain ⟨-, hk⟩ | rfl := guardPort_next h
  · rw [stallOutcome_next hk]; exact hf
  · exact acts_refl L p _

theorem acts_onPortIrq {f : State → State} (h : onPortIrq p f s = .next t) (hf : Acts L p s (f s)) : Acts L p s t := by
  obtain ⟨-, hk⟩ | rfl := guardPort_next h
  · cases hk; exact hf
  · exact acts_refl L p _

/-- An operation of one port is a sequence of acts of that port. -/
theorem acts_exec_port (hi : instrPort i = some p) (h : exec i s = .next t) : Acts (actKinds i) p s t := by
  have r := acts_refl (actKinds i) p s
  cases i with
  | irqHandler | mainEntry | runPass | transportService | idleWait | deviceReset => cases hi
  | setup _ => cases hi; rw [execSetup_next h]; exact acts_setup (by simp [actKinds]) (by simp [actKinds]) r
  | tick _ => cases hi; exact acts_onPort h (acts_tick (by simp [actKinds]) r)
  | service _ => cases hi; exact acts_onPort h (acts_service (by simp [actKinds]) r)
  | pollDisconnected _ => cases hi; exact acts_onPort h (acts_pollDisconnected (by simp [actKinds]) r)
  | onAttach _ => cases hi; exact acts_onPort h (acts_onAttach (by simp [actKinds]) r)
  | tickVbusOn _ => cases hi; exact acts_onPort h (acts_tickVbusOn r)
  | debounce _ => cases hi; exact acts_onPort h (acts_debounce r)
  | tickReady _ => cases hi; exact acts_onPort h (acts_tickReady r)
  | onTxComplete _ => cases hi; exact acts_onPort h (acts_onTxComplete r)
  | disconnect _ => cases hi; exact acts_onPort h (acts_disconnect r p)
  | vbusOff _ => cases hi; exact acts_onPort h (acts_vbusOff r p)
  | onMessage _ m => cases hi; exact acts_onPort h (acts_onMessage r m)
  | rxRequest _ m => cases hi; exact acts_onPort h (acts_reply r _ _ _ .dfpAccept)
  | rxGetSinkCap _ m | vdmDiscoverIdentityReq _ m => cases hi; exact acts_onPort h (acts_reply r _ _ _ .ready)
  | rxVdm _ m => cases hi; exact acts_onPort h (acts_rxVdm r m)
  | txVdmSerialRoute _ => cases hi; exact acts_onPort h (acts_txVdmSerialRoute r p)
  | rxEmpty _ m => cases hi; exact acts_onPort h (acts_diag_raise r (.transientNoise p .emptyRx))
  | rxOther _ m => cases hi; exact acts_onPort h (acts_diag_raise r (.protocolViolationMsg p m))
  | vdmOther _ m => cases hi; exact acts_onPort h (acts_diag_raise r (.protocolViolationVdm p m))
  | vdmDiscoverIdentityAck _ m => cases hi; exact acts_onPort h (acts_vdmDiscoverIdentityAck r m)
  | rxSourceCap _ m | rxPrSwap _ m | rxDrSwap _ m =>
    cases hi; exact acts_onPort h (acts_diag_tx (acts_diag r p) p _ _ _)
  | txSourceCap _ | txRequest _ | txAccept _ | txReject _ | txPsRdy _ | txSinkCap _ | txProbe _ | txIdentityAck _
  | txVdmReboot _ | txVdmDfuHold _ | txVdmPdReset _ => cases hi; exact acts_onPort h (acts_diag_tx r p _ _ _)
  | evVbusGood _ => cases hi; exact acts_onPort h (acts_evVbusGood r)
  | evHardReset _ => cases hi; exact acts_onPort h (acts_evHardReset r)
  | evTxSuccess _ => cases hi; exact acts_onPort h (acts_onTxComplete (acts_diag r p))
  | evMsgRx _ => cases hi; exact acts_onPort h (acts_evMsgRx r)
  | rearm _ => cases hi; exact acts_onPort h (acts_rearm r)
  | muxPump _ => cases hi; exact acts_onPort h (acts_pumpLoop r _)
  | pass _ b => cases hi; exact acts_onPort h (acts_uartPut (acts_diag r p) p b)
  | escArm _ => cases hi; exact acts_onPort h (acts_escArm r)
  | escLiteral _ => cases hi; exact acts_onPort h (acts_uartPut (acts_diag_disarm r) p _)
  | cmdRebootTarget _ | cmdDebugProbe _ => cases hi; exact acts_onPort h (acts_diag_tx (acts_diag_disarm r) p _ _ _)
  | cmdSelfReset _ => cases hi; exact acts_onPort h (acts_cmdSelfReset r)
  | cmdFwUpdate _ => cases hi; exact acts_onPort h (acts_cmdFwUpdate r)
  | cmdForceDisconnect _ => cases hi; exact acts_onPort h (acts_cmdForceDisconnect r)
  | cmdToggleVerbose _ => cases hi; exact acts_onPort h (acts_cmdToggleVerbose r)
  | cmdRoute1 _ | cmdRoute2 _ => cases hi; exact acts_onPort h (acts_selectRoute r _)
  | cmdHelp _ => cases hi; exact acts_onPort h (acts_cmdHelp r)
  | cmdDrop _ b => cases hi; exact acts_onPort h (acts_diag_disarm r)
  | breakBegin _ x => cases hi; exact acts_onPort h (acts_uartBreak r p true)
  | breakEnd _ x => cases hi; exact acts_onPort h (acts_uartBreak r p false)
  | uartRxIrq _ b => cases hi; cases h; exact acts_uartReceive r b
  | ringPut _ b => cases hi; exact acts_onPortIrq h (acts_ringPut r b)
  | ringGet _ => cases hi; exact acts_onPort h (acts_ringGetOp r)
  | drainToHost _ => cases hi; exact acts_onPort h (acts_drainToHost r)

/-- An operation of no port, but for an entry, a pass and a device reset, writes to the boundary of no port: it is a sequence
of acts of any. -/
theorem acts_exec_global (hi : instrPort i = none) (hm : i ≠ .mainEntry) (hr : i ≠ .runPass) (hd : ∀ c, i ≠ .deviceReset c)
    (h : exec i s = .next t) (p : Port) : Acts [] p s t := by
  have r := acts_refl [] p s
  cases i with
  | irqHandler => cases h; exact acts_chipIrq r
  | idleWait => cases h; exact acts_idleWait r
  | transportService => rw [stallOutcome_next h]; exact acts_transportService r
  | mainEntry => exact absurd rfl hm
  | runPass => exact absurd rfl hr
  | deviceReset c => exact absurd rfl (hd c)
  | _ => cases hi

end

end Sys2Proof.Machine

/-! ## What no act changes -/

namespace Sys2Proof.Machine

section
variable {L : List ActKind} {p q : Port} {s t : State} {i : Instr}

/-! ### The pending flag -/

theorem pending_updShared (p : Port) {f : Shared → Shared} (hf : ∀ x, x.pending = true → (f x).pending = true)
    (h : (s.shared q).pending = true) : ((s.updShared p f).shared q).pending = true := by
  rw [shared_updShared]
  split_ifs
  · exact hf _ h
  · exact h

theorem pending_takeChipIrq (h : (s.shared q).pending = true) (p : Port) : ((takeChipIrq p s).shared q).pending = true :=
  pending_updShared p (fun _ hx => hx) (pending_updShared p (fun _ _ => rfl) h)

theorem pending_chipIrq (h : (s.shared q).pending = true) : ((chipIrq s).shared q).pending = true := by
  unfold chipIrq
  split_ifs
  · exact pending_takeChipIrq (s := s.setFreeCtr (s.freeCtr + 1)) h _
  · exact pending_takeChipIrq h _
  · exact pending_takeChipIrq h _
  · exact h

theorem pending_takeIrqs (h : (s.shared q).pending = true) : ((takeIrqs s).shared q).pending = true :=
  pending_chipIrq (pending_chipIrq h)

/-- A move of the environment sets no field of the block but through the UART interrupt, which writes the ring (R208). -/
theorem pending_applyMove (h : (s.shared q).pending = true) (m : EnvMove) : ((applyMove m s).shared q).pending = true := by
  cases m with
  | uartByte p b =>
    simp only [applyMove, uartReceive]
    split_ifs
    · exact pending_updShared p (fun _ hx => hx) h
    · exact h
  | rxMsg p r => simp only [applyMove]; split_ifs <;> simpa using h
  | reset c => simp only [applyMove]; split_ifs <;> simpa using h
  | _ => simpa [applyMove, hostActivity] using h

theorem pending_playMoves (h : (s.shared q).pending = true) (ms : List EnvMove) :
    ((playMoves ms s).shared q).pending = true := by
  induction ms generalizing s with
  | nil => exact h
  | cons m ms ih =>
    unfold playMoves
    split_ifs
    · exact h
    · exact ih (pending_takeIrqs (pending_applyMove h m))

/-- No interrupt point clears a flag, in any environment (R77). -/
theorem pending_point (h : (s.shared q).pending = true) : ((point s).shared q).pending = true := by
  unfold point
  split_ifs
  · exact h
  · split
    · exact pending_takeIrqs h
    · exact pending_takeIrqs (pending_playMoves (by simpa using h) _)

/-- The flag of a port is cleared by no act but those of its own `SETUP`. -/
theorem pending_act (hq : .setUp ∈ L → q ≠ p) (h : Act L p s t) (hs : (s.shared q).pending = true) :
    (t.shared q).pending = true := by
  cases h with
  | point => exact pending_point hs
  | handler => exact pending_chipIrq hs
  | inner h => rw [h.shared]; exact hs
  | shared _ f hf => exact pending_updShared p hf hs
  | env | chip | setUpRegs => simpa using hs
  | setUpShared hL => simpa [hq hL] using hs

theorem pending_acts (hq : .setUp ∈ L → q ≠ p) (h : Acts L p s t) (hs : (s.shared q).pending = true) :
    (t.shared q).pending = true := by
  induction h with
  | refl => exact hs
  | tail _ ha ih => exact pending_act hq ha ih

theorem eq_setup_of_mem_actKinds (hi : instrPort i = some p) (h : .setUp ∈ actKinds i) : i = .setup p := by
  cases i with
  | setup _ => cases hi; rfl
  | _ => simp [actKinds] at h

/-! ### The boundary of another port, and the register spaces, while nothing is scheduled -/

/-- Nothing is scheduled, and no handler is ready for port `q`. -/
def StillAt (q : Port) (s : State) : Prop := s.sched = [] ∧ irqReady s q = false

theorem stillAt_of_quiet (h : Quiet s) (q : Port) : StillAt q s := ⟨quiet_sched h, h.1.2.2 q⟩

/-- A port for which no handler is ready stays so while its interrupt does not change and the block is not restarted. -/
theorem stillAt_congr (h : StillAt q s) (hs : t.sched = s.sched) (hr : running t = true → running s = true)
    (hl : t.live q = s.live q) (hsh : t.shared q = s.shared q) (he : t.env q = s.env q) : StillAt q t := by
  obtain ⟨hsched, hready⟩ := h
  refine ⟨hs.trans hsched, ?_⟩
  unfold irqReady at hready ⊢
  rw [hl, hsh, he]
  cases hrun : running t with
  | false => rfl
  | true => rwa [hr hrun] at hready

/-- The boundary of port `q` is as before, and no handler has become ready for it. -/
structure StillKept (q : Port) (s t : State) : Prop where
  still : StillAt q t
  shared : t.shared q = s.shared q
  env : t.env q = s.env q

theorem stillKept_refl (h : StillAt q s) : StillKept q s s := ⟨h, rfl, rfl⟩

theorem stillKept_of_eq (h : StillAt q s) (hs : t.sched = s.sched) (hr : running t = true → running s = true)
    (hl : t.live q = s.live q) (hsh : t.shared q = s.shared q) (he : t.env q = s.env q) : StillKept q s t :=
  ⟨stillAt_congr h hs hr hl hsh he, hsh, he⟩

theorem takeChipIrq_shared_other (e : q ≠ p) (s : State) : (takeChipIrq p s).shared q = s.shared q := by
  simp [takeChipIrq, maskLine, setPending, e]

/-- The handler runs for ready ports only (R171). -/
theorem shared_chipIrq_of_not_ready (h : irqReady s q = false) : (chipIrq s).shared q = s.shared q := by
  have hne : ∀ {p}, irqReady s p = true → q ≠ p := fun hp e => by simp [← e, h] at hp
  unfold chipIrq
  split_ifs with h0 h1 h1
  · cases q with
    | p0 => exact absurd rfl (hne h0)
    | p1 => exact absurd rfl (hne h1)
  · exact takeChipIrq_shared_other (hne h0) s
  · exact takeChipIrq_shared_other (hne h1) s
  · rfl

theorem stillKept_chipIrq (h : StillAt q s) : StillKept q s (chipIrq s) := by
  obtain ⟨-, henv, hsched, -⟩ := chipIrq_frame s q
  exact stillKept_of_eq h hsched (by simp) (by simp) (shared_chipIrq_of_not_ready h.2) henv

theorem stillKept_trans {u : State} (h : StillKept q s t) (h' : StillKept q t u) : StillKept q s u :=
  ⟨h'.still, h'.shared.trans h.shared, h'.env.trans h.env⟩

/-- With nothing scheduled, an interrupt point is at most two runs of the handler (R254). -/
theorem point_of_sched_nil (h : s.sched = []) : point s = s ∨ point s = takeIrqs s := by
  unfold point
  split_ifs
  · exact .inl rfl
  · rw [h]; exact .inr rfl

theorem stillKept_point (h : StillAt q s) : StillKept q s (point s) := by
  obtain e | e := point_of_sched_nil h.1 <;> rw [e]
  · exact stillKept_refl h
  · have h1 := stillKept_chipIrq h
    exact stillKept_trans h1 (stillKept_chipIrq h1.still)

/-- No act of another port touches the boundary of a port for which no handler is ready. -/
theorem stillKept_act (hq : q ≠ p) (h : Act L p s t) (hs : StillAt q s) : StillKept q s t := by
  cases h with
  | point => exact stillKept_point hs
  | handler => exact stillKept_chipIrq hs
  | inner h => exact stillKept_of_eq hs h.sched h.running (h.live q) (h.shared q) (h.env q)
  | shared | setUpShared | env | chip | setUpRegs =>
    exact stillKept_of_eq hs (by simp) (by simp [running]) (by simp [State.live, hq]) (by simp [hq]) (by simp [hq])

theorem stillKept_acts (hq : q ≠ p) (h : Acts L p s t) (hs : StillAt q s) : StillKept q s t := by
  induction h with
  | refl => exact stillKept_refl hs
  | tail _ ha ih => exact stillKept_trans ih (stillKept_act hq ha ih.still)

/-- With nothing scheduled, no act but one on a chip rewrites a register of any port. -/
theorem tcpc_act (hL : .chip ∉ L) (h : Act L p s t) (hs : s.sched = []) :
    t.sched = [] ∧ ∀ q, (t.env q).tcpc = (s.env q).tcpc := by
  cases h with
  | point =>
    refine ⟨point_sched_nil s hs, fun q => ?_⟩
    obtain e | e := point_of_sched_nil hs <;> rw [e]
    rw [(takeIrqs_frame s q).2.1]
  | handler => exact ⟨(chipIrq_frame s p).2.2.1.trans hs, fun q => by rw [(chipIrq_frame s q).2.1]⟩
  | inner h => exact ⟨h.sched.trans hs, fun q => by rw [h.env]⟩
  | shared | setUpShared | setUpRegs => simpa using hs
  | env _ f hf => exact ⟨by simpa using hs, fun q => by rw [env_updEnv]; split_ifs <;> simp [hf]⟩
  | chip h => exact absurd h hL

theorem tcpc_acts (hL : .chip ∉ L) (h : Acts L p s t) (hs : s.sched = []) :
    t.sched = [] ∧ ∀ q, (t.env q).tcpc = (s.env q).tcpc := by
  induction h with
  | refl => exact ⟨hs, fun _ => rfl⟩
  | tail _ ha ih =>
    obtain ⟨hs', he⟩ := ih
    obtain ⟨hs'', he'⟩ := tcpc_act hL ha hs'
    exact ⟨hs'', fun q => (he' q).trans (he q)⟩

theorem chip_not_mem_actKinds (h : ∀ p, i ∉ [.setup p, .onAttach p, .pollDisconnected p, .tick p, .service p]) :
    .chip ∉ actKinds i := by
  cases i with
  | setup p | onAttach p | pollDisconnected p | tick p | service p => exact absurd (by simp) (h p)
  | _ => simp [actKinds]

/-- A device reset leaves the environment as it is (R50, R265). -/
theorem env_execDeviceReset {c : ResetCause} (h : execDeviceReset c s = .next t) (q : Port) : t.env q = s.env q := by
  unfold execDeviceReset at h
  split_ifs at h <;> cases h
  · cases q <;> rfl
  · rfl

/-- With nothing scheduled, only the operations that reset a chip or read its status rewrite a register (R61). -/
theorem tcpc_exec (hL : .chip ∉ actKinds i) (hm : i ≠ .mainEntry) (hr : i ≠ .runPass) (h : exec i s = .next t)
    (hs : s.sched = []) (q : Port) : (t.env q).tcpc = (s.env q).tcpc := by
  by_cases hd : ∃ c, i = .deviceReset c
  · obtain ⟨c, rfl⟩ := hd
    rw [env_execDeviceReset h q]
  · cases hi : instrPort i with
    | some p => exact (tcpc_acts hL (acts_exec_port hi h) hs).2 q
    | none => exact (tcpc_acts List.not_mem_nil (acts_exec_global hi hm hr (fun c e => hd ⟨c, e⟩) h .p0) hs).2 q

end

/-- Settles O57: the acts of one port leave a still port alone, and only acts on a chip rewrite registers. -/
theorem quietBoundaryFrame : Obligations.QuietBoundaryFrame := by
  intro i s t h hq
  refine ⟨fun p q hi e => ?_, fun hc hm hr q a => ?_⟩
  · have hk := stillKept_acts e (acts_exec_port hi h) (stillAt_of_quiet hq q)
    exact ⟨hk.shared, hk.env⟩
  · rw [tcpc_exec (chip_not_mem_actKinds hc) hm hr h (quiet_sched hq) q]

/-- Settles O59: only the acts of the port's own `SETUP` clear the flag, and the entry, the pass and the device reset are named
in the statement. -/
theorem pendingIsNotLost : Obligations.PendingIsNotLost := by
  intro i q s t h hs
  by_cases hx : i ∈ [.setup q, .mainEntry, .runPass] ∨ ∃ c, i = .deviceReset c
  · exact .inr hx
  · simp only [List.mem_cons, List.not_mem_nil, or_false, not_or] at hx
    obtain ⟨⟨hset, hm, hr⟩, hd⟩ := hx
    refine .inl ?_
    cases hi : instrPort i with
    | some p =>
      exact pending_acts (fun hL e => hset (e ▸ eq_setup_of_mem_actKinds hi hL)) (acts_exec_port hi h) hs
    | none => exact pending_acts (by simp) (acts_exec_global hi hm hr (fun c e => hd ⟨c, e⟩) h .p0) hs

end Sys2Proof.Machine

/-! # The encoding family: the decoder undoes the encoder, and no step stops but in a `HostSend` -/

/-! ## Decoding what was encoded (R90 to R104)

One equation per format: what `decode` answers for a selector that carries the index of a port and a record of the codec. -/

namespace Sys2Proof

section
variable {c : Params} {m : Msg} {k : RxClass} {v : VdmClass}

@[simp] theorem decodePort_index (p : Port) : decodePort p.index = .ok p := by cases p <;> rfl

/-- A message of the codec has as many objects as it says, and at most seven (R97). -/
@[simp] theorem decodeMsg_raw (m : Msg) : decodeMsg m.raw = .ok m := by
  simp [decodeMsg, Msg.raw, Msg.nobj, m.obj.property]

@[simp] theorem decodeRaw_raw (r : RxRecord) : decodeRaw r.raw = .ok r := by
  cases r with
  | garbage => rfl
  | message m => exact congrArg (Except.map RxRecord.message) (decodeMsg_raw m)

theorem decode_byte (c : Params) (p : Port) (e : Bool) (b : Byte) :
    decode c (.byte p.index e b) = .ok ((decodeByte e b).instr p) := by simp [decode, Except.map]

theorem decode_evt (c : Params) (p : Port) (k : EvKind) : decode c (.evt p.index k) = .ok (k.instr p) := by
  simp [decode, Except.map]

theorem decode_msg (c : Params) (p : Port) (r : RxRecord) :
    decode c (.msg p.index r.raw) = .ok ((decodeRecord c r).instr p) := by simp [decode, Except.map, Except.bind]

/-- A VDM is decoded only if its message is one (R100). -/
theorem decode_vdm (hv : classOfMsg c m = .vendorDefined) (p : Port) :
    decode c (.vdm p.index m.raw) = .ok ((vdmClass c m).instr p m) := by simp [decode, Except.bind, decodeVdm, hv]

theorem decode_procPort (c : Params) (f : PortProc) (p : Port) : decode c (.procPort f p.index) = .ok (f.instr p) := by
  simp [decode, Except.map]

theorem decode_procOnMessage (c : Params) (p : Port) (r : RxRecord) :
    decode c (.procOnMessage p.index r.raw) = .ok (.onMessage p r) := by simp [decode, Except.map, Except.bind]

theorem decode_procRingPut (c : Params) (p : Port) (b : Byte) : decode c (.procRingPut p.index b) = .ok (.ringPut p b) := by
  simp [decode, Except.map]

/-! ### Well-formed operands -/

theorem wfClass_iff : wfClass c k m = true ↔ classOfMsg c m = k := by simp [wfClass]

theorem wfVdm_iff : wfVdm c v m = true ↔ classOfMsg c m = .vendorDefined ∧ vdmClass c m = v := by
  simp [wfVdm, wfClass_iff]

/-- A record of class `EMPTY` is decoded as one, whether it is a message or not (R98 row 1). -/
theorem decodeRecord_of_wfEmpty {r : RxRecord} (h : wfEmpty c r = true) : decodeRecord c r = .empty r := by
  cases r with
  | garbage => rfl
  | message m => simp [decodeRecord, wfClass_iff.1 h]

theorem decodeByte_of_wfPassByte {b : Byte} (h : wfPassByte b = true) : decodeByte false b = .pass b := by
  have hne : b ≠ Config.esc := by simpa [wfPassByte, Config.esc] using h
  exact if_neg hne

theorem decodeByte_of_wfDropByte {b : Byte} (h : wfDropByte b = true) : decodeByte true b = .cmdDrop b := by
  simpa [wfDropByte, decodeByte] using h

/-- A well-formed VDM operation is read back from its message. -/
theorem decode_vdm_of_wf (h : wfVdm c v m = true) (p : Port) : decode c (.vdm p.index m.raw) = .ok (v.instr p m) := by
  obtain ⟨hc, hv⟩ := wfVdm_iff.1 h
  rw [decode_vdm hc, hv]

end

/-- Settles O5: by format; the operands of the formats BYTE, MSG and VDM are read back because they are well formed. -/
theorem decodeEncodeRoundTrip : Obligations.DecodeEncodeRoundTrip := by
  intro c i h
  cases i with
  | pass p b => exact (decode_byte c p false b).trans (by rw [decodeByte_of_wfPassByte h]; rfl)
  | cmdDrop p b => exact (decode_byte c p true b).trans (by rw [decodeByte_of_wfDropByte h]; rfl)
  | escArm p => exact decode_byte c p false _
  | escLiteral p | cmdRebootTarget p | cmdSelfReset p | cmdFwUpdate p | cmdForceDisconnect p | cmdToggleVerbose p
  | cmdDebugProbe p | cmdRoute1 p | cmdRoute2 p | cmdHelp p => exact decode_byte c p true _
  | evVbusGood p | evHardReset p | evTxSuccess p | evMsgRx p => exact decode_evt c p _
  | rxSourceCap p m | rxRequest p m | rxVdm p m | rxPrSwap p m | rxDrSwap p m | rxGetSinkCap p m | rxOther p m =>
    exact (decode_msg c p (.message m)).trans (by simp [decodeRecord, wfClass_iff.1 h, RxOp.instr])
  | rxEmpty p r => exact (decode_msg c p r).trans (by rw [decodeRecord_of_wfEmpty h]; rfl)
  | vdmDiscoverIdentityReq p m | vdmDiscoverIdentityAck p m | vdmOther p m => exact decode_vdm_of_wf h p
  | onMessage p r => exact decode_procOnMessage c p r
  | ringPut p b => exact decode_procRingPut c p b
  | setup p | breakBegin p x | breakEnd p x | uartRxIrq p b => simp [encode, decode, decodeCall, Except.map]
  | irqHandler | mainEntry | runPass | transportService | idleWait | deviceReset => rfl
  | _ p => exact decode_procPort c _ p

/-- Settles O6: each word is one decode, evaluated. -/
theorem tableWordsDecode : Obligations.TableWordsDecode := by
  refine ⟨?_, ?_, ?_, ?_, ?_, ?_, ?_⟩ <;> decide

end Sys2Proof

/-! ## What `MAIN` does keeps the environment's duty

`SendsTo D` says of a run of `MAIN` that it sends to the hosts of the ports `D` only: while the environment does its duty
toward those, no send of the run is stuck and the duty toward every port is still done at its end (R229). It is proved of
every primitive and so of every operation but a device reset; that an operation completes follows from it. -/

namespace Sys2Proof.Machine

/-- A run of `MAIN` from `s` to `t` that sends to the hosts of the ports `D` only, and does not go back to `MAIN_ENTRY`. -/
structure SendsTo (D : Port → Prop) (s t : State) : Prop where
  started : s.pos ≠ .entry → t.pos ≠ .entry
  duty : (∀ p, D p → HostTakes p s) → ∀ q, HostTakes q s → HostTakes q t

section
variable {D : Port → Prop} {p : Port} {s t u : State}

theorem sends_refl (D : Port → Prop) (s : State) : SendsTo D s s := ⟨id, fun _ _ => id⟩

theorem sends_trans (h : SendsTo D s t) (h' : SendsTo D t u) : SendsTo D s u :=
  ⟨fun hs => h'.started (h.started hs), fun hD q hq => h'.duty (fun p hp => h.duty hD p (hD p hp)) q (h.duty hD q hq)⟩

/-- A continuation that sends nothing. -/
theorem sends_keep (h : SendsTo D s t) (hp : u.pos = t.pos) (hu : ∀ q, HostTakes q t → HostTakes q u) : SendsTo D s u :=
  sends_trans h ⟨fun ht => hp ▸ ht, fun _ => hu⟩

/-! ### Writes -/

theorem sends_updRegs (h : SendsTo D s t) (p : Port) (f : PortRegs → PortRegs) : SendsTo D s (t.updRegs p f) :=
  sends_keep h (by simp) fun _ hq => hostTakes_updRegs hq p f
theorem sends_updShared (h : SendsTo D s t) (p : Port) (f : Shared → Shared) : SendsTo D s (t.updShared p f) :=
  sends_keep h (by simp) fun _ hq => hostTakes_updShared hq p f
theorem sends_updEnv (h : SendsTo D s t) (p : Port) {f : EnvPort → EnvPort} (hc : ∀ e, (f e).connected = e.connected)
    (hf : ∀ e, (f e).takes = e.takes) : SendsTo D s (t.updEnv p f) :=
  sends_keep h (by simp) fun _ hq => hostTakes_updEnv hq p f hc hf
theorem sends_setFreeCtr (h : SendsTo D s t) (x : Nat) : SendsTo D s (t.setFreeCtr x) :=
  sends_keep h rfl fun _ hq => hostTakes_setFreeCtr hq x
theorem sends_setWake (h : SendsTo D s t) (x : Bool) : SendsTo D s (t.setWake x) :=
  sends_keep h rfl fun _ hq => hostTakes_setWake hq x
theorem sends_setCalls (h : SendsTo D s t) (x : List BreakCall) : SendsTo D s (t.setCalls x) :=
  sends_keep h rfl fun _ hq => hostTakes_setCalls hq x
theorem sends_setWdogArmed (h : SendsTo D s t) (x : Bool) : SendsTo D s (t.setWdogArmed x) :=
  sends_keep h rfl fun _ hq => hostTakes_setWdogArmed hq x
theorem sends_setHalt (h : SendsTo D s t) (x : Halt) : SendsTo D s (t.setHalt x) :=
  sends_keep h rfl fun _ hq => hostTakes_setHalt hq x
theorem sends_setRet (h : SendsTo D s t) (x : Option Byte) : SendsTo D s (t.setRet x) :=
  sends_keep h rfl fun _ hq => hostTakes_setRet hq x

theorem sends_setPos (h : SendsTo D s t) {x : MainPos} (hx : x ≠ .entry) : SendsTo D s (t.setPos x) :=
  sends_trans h ⟨fun _ => hx, fun _ _ hq => hostTakes_setPos hq x⟩

/-! ### Primitives -/

theorem sends_point (h : SendsTo D s t) : SendsTo D s (point t) := sends_keep h (by simp) fun _ => hostTakes_point
theorem sends_emit (h : SendsTo D s t) (e : Event) : SendsTo D s (emit e t) :=
  sends_keep h (by simp) fun _ => hostTakes_emit e
theorem sends_delay (h : SendsTo D s t) (p : Port) (d : DelayKind) : SendsTo D s (delay p d t) :=
  sends_keep h (by simp) fun _ => hostTakes_delay p d
theorem sends_uartPut (h : SendsTo D s t) (p : Port) (b : Byte) : SendsTo D s (uartPut p b t) :=
  sends_keep h (by simp) fun _ => hostTakes_uartPut p b
theorem sends_outWrite (h : SendsTo D s t) (p : Port) (w : OutWrite) : SendsTo D s (outWrite p w t) :=
  sends_keep h (by simp) fun _ => hostTakes_outWrite p w
theorem sends_outWritePair (h : SendsTo D s t) (p : Port) (v w : OutWrite) : SendsTo D s (outWritePair p v w t) :=
  sends_keep h (by simp) fun _ => hostTakes_outWritePair p v w
theorem sends_tx (h : SendsTo D s t) (p : Port) (k : TxKind) (c : MsgCode) (o : Objs) : SendsTo D s (tx p k c o t) :=
  sends_keep h (by simp) fun _ => hostTakes_tx p k c o
theorem sends_tcpcReset (h : SendsTo D s t) (p : Port) : SendsTo D s (tcpcReset p t) :=
  sends_keep h (by simp) fun _ => hostTakes_tcpcReset p
theorem sends_intStatusReadClear (h : SendsTo D s t) (p : Port) : SendsTo D s (intStatusReadClear p t).2 :=
  sends_keep h (by simp) fun _ => hostTakes_intStatusReadClear p

theorem sends_chipIrq (h : SendsTo D s t) : SendsTo D s (chipIrq t) := by
  refine sends_keep h (by simp) fun q hq => ?_
  obtain ⟨hst, henv, hsched, -⟩ := chipIrq_frame t q
  exact hostTakes_congr hq hst (by rw [henv]) (by rw [henv]) hsched

theorem sends_ringPut (h : SendsTo D s t) (p : Port) (b : Byte) : SendsTo D s (ringPut p b t) := sends_updShared h p _

theorem sends_uartReceive (h : SendsTo D s t) (p : Port) (b : Byte) : SendsTo D s (uartReceive p b t) := by
  unfold uartReceive
  split_ifs
  · exact sends_setWake (sends_ringPut h p b) true
  · exact h

theorem sends_ringGet (h : SendsTo D s t) (p : Port) : SendsTo D s (ringGet p t).2 := by
  simp only [ringGet]; exact sends_updShared h p _

theorem sends_rxGet (h : SendsTo D s t) (p : Port) : SendsTo D s (rxGet p t).2 := by
  unfold rxGet
  split_ifs
  · exact h
  · split <;> dsimp only
    · exact h
    · exact sends_updEnv h p (fun _ => rfl) fun _ => rfl

theorem sends_hostTryRecv (h : SendsTo D s t) (p : Port) : SendsTo D s (hostTryRecv p t).2 := by
  unfold hostTryRecv
  split_ifs
  · exact h
  · split <;> dsimp only
    · exact h
    · exact sends_updEnv h p (fun _ => rfl) fun _ => rfl

/-- A send to the host of `p` keeps the duty toward every port while it is done toward `p` (R80, R229). -/
theorem sends_hostSend (hD : D p) (h : SendsTo D s t) (e : Event) : SendsTo D s (hostSend p e t) :=
  sends_trans h ⟨by simp, fun hp _ => hostTakes_hostSend e (hp p hD)⟩

theorem sends_logLine (hD : D p) (h : SendsTo D s t) (l : LogBody) : SendsTo D s (logLine p l t) :=
  sends_trans h ⟨by simp, fun hp _ => hostTakes_logLine l (hp p hD)⟩

theorem sends_diag (hD : D p) (h : SendsTo D s t) : SendsTo D s (diag p t) :=
  sends_trans h ⟨by simp, fun hp _ => hostTakes_diag (hp p hD)⟩

/-- The port of a condition, to whose host its log line goes. -/
def conditionPort : Condition → Option Port
  | .absence p _ | .transientNoise p _ | .protocolViolationMsg p _ | .protocolViolationVdm p _ | .hardFailure p _ => some p
  | .operatorFatal _ => none

theorem sends_raise (h : SendsTo D s t) (c : Condition) (hD : ∀ p, conditionPort c = some p → D p) :
    SendsTo D s (raise c t) := by
  cases c with
  | transientNoise p n => exact h
  | hardFailure p c => exact sends_emit h _
  | operatorFatal c => exact sends_emit h _
  | absence p c | protocolViolationMsg p m | protocolViolationVdm p m => exact sends_logLine (hD p rfl) (sends_emit h _) _

/-- Every transmit operation of R150 to R163 is the optional `DIAG` lines and one `Tx`. -/
theorem sends_diag_tx (hD : D p) (h : SendsTo D s t) (k : TxKind) (c : MsgCode) (o : Objs) :
    SendsTo D s (tx p k c o (diag p t)) := sends_tx (sends_diag hD h) p k c o

theorem sends_diag_raise (hD : D p) (h : SendsTo D s t) (c : Condition) (hc : conditionPort c = some p) :
    SendsTo D s (raise c (diag p t)) :=
  sends_raise (sends_diag hD h) c fun _ hq => Option.some.inj (hc.symm.trans hq) ▸ hD

end

/-! ### Policy engine -/

section
variable {D : Port → Prop} {p : Port} {s t u : State}

theorem sends_txVdmSerialRoute (hD : D p) (h : SendsTo D s t) : SendsTo D s (txVdmSerialRoute p t) :=
  sends_outWritePair (sends_diag_tx hD h _ _ _) p _ _

theorem sends_vbusOff (hD : D p) (h : SendsTo D s t) : SendsTo D s (vbusOff p t) :=
  sends_outWrite (sends_delay (sends_outWrite (sends_diag hD h) p _) p _) p _

theorem sends_disconnect (hD : D p) (h : SendsTo D s t) : SendsTo D s (disconnect p t) :=
  sends_updRegs (sends_outWrite (sends_outWrite (sends_outWrite (sends_vbusOff hD (sends_diag hD h)) p _) p _) p _) p
    disconnectedRegs

theorem sends_outWrite_if (h : SendsTo D s t) (c : Bool) (p : Port) (w : OutWrite) :
    SendsTo D s (if c then outWrite p w t else t) := by
  split_ifs
  · exact sends_outWrite h p w
  · exact h

theorem sends_attach (hD : D p) (h : SendsTo D s t) (cc : Nat × Nat) : SendsTo D s (attach p cc t) := by
  have h1 := sends_outWrite (sends_outWrite (sends_tcpcReset h p) p (.hdrRole .source)) p (.vconn false)
  have h2 := sends_outWrite (sends_updRegs h1 p fun r => { r with pol := selectPolarity cc }) p
    (.chipPol (chipPolOf (selectPolarity cc)))
  have h3 := sends_outWrite (sends_outWrite (sends_outWrite_if h2 (wantVconn cc) p (.vconn true)) p (.rxEn true)) p
    (.vbus .on)
  exact sends_diag_tx hD (sends_updRegs h3 p _) _ _ _

theorem sends_onAttach (hD : D p) (h : SendsTo D s t) : SendsTo D s (onAttach p t) := by
  have hp := sends_point (sends_diag hD h)
  unfold onAttach
  dsimp only
  split_ifs
  · exact sends_attach hD hp _
  · exact hp

theorem sends_pollDisconnected (hD : D p) (h : SendsTo D s t) : SendsTo D s (pollDisconnected p t) := by
  have hp := sends_point (sends_diag hD h)
  unfold pollDisconnected
  dsimp only
  split_ifs
  · exact sends_onAttach hD hp
  · exact sends_delay hp p _

theorem sends_tickVbusOn (hD : D p) (h : SendsTo D s t) : SendsTo D s (tickVbusOn p t) := by
  have hn := sends_updRegs (sends_diag hD h) p fun r => { r with sct := r.sct + 1 }
  unfold tickVbusOn
  dsimp only
  split_ifs
  · exact sends_updRegs (sends_diag_tx hD (sends_diag_tx hD hn _ _ _) _ _ _) p _
  · exact hn

theorem sends_tickReady (hD : D p) (h : SendsTo D s t) : SendsTo D s (tickReady p t) := sends_updRegs (sends_diag hD h) p _

theorem sends_debounce (hD : D p) (h : SendsTo D s t) : SendsTo D s (debounce p t) := by
  have hd := sends_point (sends_diag hD h)
  have hn := sends_updRegs hd p fun r => { r with deb := r.deb + 1 }
  unfold debounce
  dsimp only
  split_ifs
  · exact sends_disconnect hD hn
  · exact hn
  · exact sends_updRegs hd p _

theorem sends_tickState (hD : D p) (h : SendsTo D s t) : SendsTo D s (tickState p t) := by
  unfold tickState
  split
  next => exact sends_pollDisconnected hD h
  next => exact sends_tickVbusOn hD h
  next => exact sends_tickReady hD h
  all_goals exact h

theorem sends_tick (hD : D p) (h : SendsTo D s t) : SendsTo D s (tick p t) := by
  have hd := sends_tickState hD (sends_diag hD h)
  unfold tick
  dsimp only
  split_ifs
  · exact hd
  · exact sends_debounce hD hd

theorem sends_onTxComplete (hD : D p) (h : SendsTo D s t) : SendsTo D s (onTxComplete p t) := by
  have hd := sends_diag hD h
  unfold onTxComplete
  dsimp only
  split
  next => exact sends_txVdmSerialRoute hD (sends_updRegs hd p _)
  next => exact sends_updRegs (sends_diag_tx hD hd _ _ _) p _
  all_goals exact hd

/-! ### Messages -/

theorem sends_vdmDiscoverIdentityAck (hD : D p) (h : SendsTo D s t) (m : Msg) :
    SendsTo D s (vdmDiscoverIdentityAck p m t) := by
  have hd := sends_diag hD h
  unfold vdmDiscoverIdentityAck
  dsimp only
  split_ifs
  · exact sends_logLine hD (sends_setFreeCtr hd _) _
  · exact sends_setFreeCtr hd _
  · exact hd

/-- A reply that advances the policy state: the `DIAG` lines of the message's operation and of the transmit operation, the
transmission, and the new state (R142, R144, R158). -/
theorem sends_reply (hD : D p) (h : SendsTo D s t) (k : TxKind) (c : MsgCode) (o : Objs) (x : PolicyState) :
    SendsTo D s ((tx p k c o (diag p (diag p t))).updRegs p fun r => { r with ps := x }) :=
  sends_updRegs (sends_diag_tx hD (sends_diag hD h) k c o) p _

theorem sends_rxVdm (hD : D p) (h : SendsTo D s t) (m : Msg) : SendsTo D s (rxVdm p m t) := by
  have hd := sends_diag hD h
  unfold rxVdm
  dsimp only
  split
  next => exact sends_reply hD hd _ _ _ .ready
  next => exact sends_vdmDiscoverIdentityAck hD hd m
  next => exact sends_diag_raise hD hd _ rfl

theorem sends_runRxOp (hD : D p) (h : SendsTo D s t) (o : RxOp) : SendsTo D s (runRxOp p o t) := by
  cases o with
  | empty r => exact sends_diag hD h
  | sourceCap m | prSwap m | drSwap m => exact sends_diag_tx hD (sends_diag hD h) _ _ _
  | request m => exact sends_reply hD h _ _ _ .dfpAccept
  | vendorDefined m => exact sends_rxVdm hD h m
  | getSinkCap m => exact sends_reply hD h _ _ _ .ready
  | other m => exact sends_diag_raise hD h (.protocolViolationMsg p m) rfl

theorem sends_onMessage (hD : D p) (h : SendsTo D s t) (m : RxRecord) : SendsTo D s (onMessage p m t) :=
  sends_runRxOp hD (sends_diag hD h) _

/-! ### Event dispatcher -/

theorem sends_evVbusGood (hD : D p) (h : SendsTo D s t) : SendsTo D s (evVbusGood p t) := by
  have hp := sends_point (sends_diag hD h)
  unfold evVbusGood
  dsimp only
  split_ifs
  · exact sends_diag_tx hD (sends_diag_tx hD hp _ _ _) _ _ _
  · exact sends_disconnect hD (sends_emit hp _)

theorem sends_evHardReset (hD : D p) (h : SendsTo D s t) : SendsTo D s (evHardReset p t) :=
  sends_disconnect hD (sends_diag_raise hD h _ rfl)

theorem sends_drainRxOnce (hD : D p) (h : SendsTo D s t) (hu : drainRxOnce p t = some u) : SendsTo D s u := by
  have hg := sends_rxGet (sends_point (sends_point h)) p
  unfold drainRxOnce at hu
  dsimp only at hu
  split_ifs at hu
  split at hu <;> cases hu
  next m v e => rw [e] at hg; exact sends_onMessage hD hg m
  next e => rw [e] at hg; exact hg

theorem sends_drainRx (hD : D p) (h : SendsTo D s t) (n : Nat) : SendsTo D s (drainRx p n t) := by
  induction n generalizing t with
  | zero => exact h
  | succ n ih =>
    unfold drainRx
    split
    next e => exact ih (sends_drainRxOnce hD h e)
    next => exact sends_point h

theorem sends_evMsgRx (hD : D p) (h : SendsTo D s t) : SendsTo D s (evMsgRx p t) := sends_drainRx hD (sends_diag hD h) _

theorem sends_runEvent (hD : D p) (h : SendsTo D s t) (k : EvKind) : SendsTo D s (runEvent p k t) := by
  cases k with
  | vbusGood => exact sends_evVbusGood hD h
  | hardReset => exact sends_evHardReset hD h
  | txSuccess => exact sends_onTxComplete hD (sends_diag hD h)
  | msgRx => exact sends_evMsgRx hD h

theorem sends_runEvents (hD : D p) (h : SendsTo D s t) (ks : List EvKind) : SendsTo D s (runEvents p ks t) := by
  induction ks generalizing t with
  | nil => exact h
  | cons k ks ih => exact ih (sends_runEvent hD h k)

theorem sends_rearm (hD : D p) (h : SendsTo D s t) : SendsTo D s (rearm p t) :=
  sends_updShared (sends_diag hD h) p fun x => { x with irqEn := true }

theorem sends_service (hD : D p) (h : SendsTo D s t) : SendsTo D s (service p t) :=
  sends_rearm hD (sends_tick hD (sends_runEvents hD (sends_intStatusReadClear (sends_diag hD h) p) _))

/-! ### Multiplexer -/

/-- What every armed-mode operation starts with (R190, R205). -/
theorem sends_diag_disarm (hD : D p) (h : SendsTo D s t) : SendsTo D s (diag p (disarmEscape p t)) :=
  sends_diag hD (sends_updRegs h p _)

theorem sends_escArm (hD : D p) (h : SendsTo D s t) : SendsTo D s (escArm p t) :=
  sends_updRegs (sends_diag hD h) p fun r => { r with esc := true }

theorem sends_cmdSelfReset (hD : D p) (h : SendsTo D s t) : SendsTo D s (cmdSelfReset p t) :=
  sends_emit (sends_setWdogArmed (sends_diag_disarm hD h) true) _

theorem sends_cmdFwUpdate (hD : D p) (h : SendsTo D s t) : SendsTo D s (cmdFwUpdate p t) :=
  sends_emit (sends_setHalt (sends_diag_disarm hD h) .fwUpdate) _

theorem sends_cmdForceDisconnect (hD : D p) (h : SendsTo D s t) : SendsTo D s (cmdForceDisconnect p t) :=
  sends_disconnect hD (sends_updShared (sends_diag_disarm hD h) p _)

theorem sends_cmdToggleVerbose (hD : D p) (h : SendsTo D s t) : SendsTo D s (cmdToggleVerbose p t) :=
  sends_diag hD (sends_updRegs (sends_diag_disarm hD h) p _)

theorem sends_selectRoute (hD : D p) (h : SendsTo D s t) (r : Route) : SendsTo D s (selectRoute p r t) :=
  sends_diag_tx hD (sends_updRegs (sends_diag_disarm hD h) p _) _ _ _

theorem sends_cmdHelp (hD : D p) (h : SendsTo D s t) : SendsTo D s (cmdHelp p t) :=
  sends_logLine hD (sends_diag_disarm hD h) _

theorem sends_uartBreak (hD : D p) (h : SendsTo D s t) (b : Bool) :
    SendsTo D s (outWrite p (.uartBreak b) (diag p t)) := sends_outWrite (sends_diag hD h) p _

theorem sends_ringGetOp (hD : D p) (h : SendsTo D s t) : SendsTo D s (ringGetOp p t) :=
  sends_diag hD (sends_setRet (sends_ringGet h p) _)

theorem sends_drainRing (hD : D p) (h : SendsTo D s t) (n : Nat) : SendsTo D s (drainRing p n t) := by
  induction n generalizing t with
  | zero => exact h
  | succ n ih =>
    have hg := sends_ringGet (sends_point h) p
    unfold drainRing
    split
    next u e => rw [e] at hg; exact sends_diag hD hg
    next b u e => rw [e] at hg; exact ih (sends_hostSend hD (sends_diag hD hg) _)

theorem sends_drainToHost (hD : D p) (h : SendsTo D s t) : SendsTo D s (drainToHost p t) :=
  sends_drainRing hD (sends_diag hD h) _

theorem sends_runByteOp (hD : D p) (h : SendsTo D s t) (o : ByteOp) : SendsTo D s (runByteOp p o t) := by
  cases o with
  | pass b => exact sends_uartPut (sends_diag hD h) p b
  | escArm => exact sends_escArm hD h
  | escLiteral => exact sends_uartPut (sends_diag_disarm hD h) p _
  | cmdRebootTarget | cmdDebugProbe => exact sends_diag_tx hD (sends_diag_disarm hD h) _ _ _
  | cmdSelfReset => exact sends_cmdSelfReset hD h
  | cmdFwUpdate => exact sends_cmdFwUpdate hD h
  | cmdForceDisconnect => exact sends_cmdForceDisconnect hD h
  | cmdToggleVerbose => exact sends_cmdToggleVerbose hD h
  | cmdRoute1 | cmdRoute2 => exact sends_selectRoute hD h _
  | cmdHelp => exact sends_cmdHelp hD h
  | cmdDrop b => exact sends_diag_disarm hD h

theorem sends_pumpLoop (hD : D p) (h : SendsTo D s t) (n : Nat) : SendsTo D s (pumpLoop p n t) := by
  induction n generalizing t with
  | zero => exact h
  | succ n ih =>
    have hg := sends_hostTryRecv (sends_point h) p
    unfold pumpLoop
    split
    next u e => rw [e] at hg; exact sends_drainToHost hD hg
    next b u e =>
      rw [e] at hg
      have hb : SendsTo D s (muxByte p b u) := sends_runByteOp hD hg _
      dsimp only
      split_ifs
      · exact ih hb
      · exact hb

theorem sends_muxPump (hD : D p) (h : SendsTo D s t) : SendsTo D s (muxPump p t) := sends_pumpLoop hD h _

/-! ### Run loop

The transport call and the pass are operations of no port: they may send to every host. -/

theorem sends_deliverBreak (hD : ∀ p, D p) (h : SendsTo D s t) (c : BreakCall) : SendsTo D s (deliverBreak c t) := by
  unfold deliverBreak
  split_ifs
  · exact sends_uartBreak (hD _) h true
  · exact sends_uartBreak (hD _) h false
  · exact h

theorem sends_deliverCalls (hD : ∀ p, D p) (h : SendsTo D s t) (n : Nat) : SendsTo D s (deliverCalls n t) := by
  induction n generalizing t with
  | zero => exact h
  | succ n ih =>
    unfold deliverCalls
    split_ifs
    · exact h
    · split
      · exact h
      · exact ih (sends_deliverBreak hD (sends_setCalls h _) _)

theorem sends_transportService (hD : ∀ p, D p) (h : SendsTo D s t) : SendsTo D s (transportService t) :=
  sends_deliverCalls hD (sends_point h) _

theorem sends_idleWait (h : SendsTo D s t) : SendsTo D s (idleWait t) := by
  unfold idleWait
  dsimp only
  split_ifs
  · exact sends_setPos (sends_setWake (sends_point h) _) (by decide)
  · exact sends_setPos (sends_point h) (by decide)

theorem sends_idleTest (h : SendsTo D s t) : SendsTo D s (idleTest t) :=
  sends_setPos (sends_setWake (sends_point h) _) (by split_ifs <;> decide)

theorem sends_takePending (h : SendsTo D s t) (p : Port) : SendsTo D s (takePending p t).2 :=
  sends_setPos (sends_updShared (sends_point h) p _) (by simp)

theorem afterTurn_ne_entry (p : Port) : afterTurn p ≠ .entry := by cases p <;> decide

theorem sends_portPass (hD : D p) (h : SendsTo D s t) : SendsTo D s (portPass p t) := by
  have hp := sends_takePending h p
  unfold portPass
  dsimp only
  split_ifs
  · exact sends_setPos (sends_muxPump hD (sends_service hD hp)) (afterTurn_ne_entry p)
  · exact sends_muxPump hD (sends_service hD hp)
  · exact sends_setPos (sends_muxPump hD hp) (afterTurn_ne_entry p)
  · exact sends_muxPump hD hp
  · exact sends_setPos h (afterTurn_ne_entry p)

theorem sends_endPass (hD : ∀ p, D p) (h : SendsTo D s t) : SendsTo D s (endPass t) := by
  have hi := sends_idleTest (sends_transportService hD (sends_setPos (x := .idleTest) h (by decide)))
  unfold endPass
  dsimp only
  split_ifs
  · exact sends_idleWait hi
  · exact hi

theorem sends_runPass (hD : ∀ p, D p) (h : SendsTo D s t) : SendsTo D s (runPass t) := by
  have h0 := sends_portPass (hD .p0) h
  have h1 := sends_portPass (hD .p1) h0
  unfold runPass
  dsimp only
  split_ifs
  · exact sends_endPass hD h1
  · exact h1
  · exact h0

/-! ### `SETUP` and `MAIN_ENTRY` -/

theorem sends_markAbsent (hD : D p) (h : SendsTo D s t) (c : AbsenceCause) : SendsTo D s (markAbsent p c t) :=
  sends_diag hD (sends_raise (sends_updShared (sends_updRegs h p _) p _) (.absence p c) fun _ e => Option.some.inj e ▸ hD)

theorem sends_setupConnect (h : SendsTo D s t) (p : Port) : SendsTo D s (setupConnect p t) :=
  sends_outWrite (sends_outWrite (sends_outWrite (sends_outWrite (sends_tcpcReset (sends_updRegs h p _) p)
    p _) p _) p _) p _

theorem sends_setupOutputs (hD : D p) (h : SendsTo D s t) : SendsTo D s (setupOutputs p t) :=
  sends_diag hD (sends_outWrite (sends_outWrite (sends_outWrite (sends_outWrite (sends_outWrite h
    p _) p _) p _) p _) p _)

theorem sends_setupPresent (hD : D p) (h : SendsTo D s t) : SendsTo D s (setupPresent p t) := by
  have hf : SendsTo D s (setupFields p (setupConnect p t)) := by
    unfold setupFields
    exact sends_updShared (sends_updRegs (sends_setupConnect h p) p _) p _
  rw [setupPresent_eq]
  exact sends_updRegs (sends_updShared (sends_setupOutputs hD hf) p _) p _

theorem sends_setup (hD : D p) (h : SendsTo D s t) : SendsTo D s (setup p t) := by
  have h1 := sends_point (sends_vbusOff hD (sends_outWrite (sends_diag hD h) p (.indicator (diag p t).cfg.indicatorLevel)))
  have h2 := sends_point h1
  unfold setup setupIdentify
  dsimp only
  refine sends_updRegs ?_ p _
  split_ifs
  · exact sends_markAbsent hD h1 _
  · exact sends_setupPresent hD h2
  · exact sends_markAbsent hD h2 _

theorem sends_mainEntry (hD : ∀ p, D p) (h : SendsTo D s t) : SendsTo D s (mainEntry t) :=
  sends_setPos (sends_setup (hD .p1) (sends_setup (hD .p0) (sends_setHalt (sends_setWdogArmed h false) .running)))
    (by decide)

end

end Sys2Proof.Machine

/-! ## Every operation of a device that is set up completes, or is stuck in a `HostSend` (R226(c), R246) -/

namespace Sys2Proof.Machine

/-- The outcome of an operation that has run to `u`: the state `u`, or stuck there in a `HostSend`. -/
def RunsTo (x : Host.Outcome State Fault Refusal) (u : State) : Prop := x = .next u ∨ x = stallOutcome u

section
variable {x : Host.Outcome State Fault Refusal} {D : Port → Prop} {p : Port} {s u : State} {i : Instr}

theorem next_or_stalled_of_runsTo (h : RunsTo x u) : x = .next u ∨ ∃ p, x = .fault (.hostSendStalled p) := by
  obtain h | h := h
  · exact .inl h
  · unfold stallOutcome at h
    split at h
    next => exact .inl h
    next p _ => exact .inr ⟨p, h⟩

theorem next_of_runsTo (h : RunsTo x u) (hu : u.stalled = none) : x = .next u :=
  h.elim id fun e => e.trans (stallOutcome_of_none hu)

/-- An operation behind the guard of its port, once its `SETUP` has returned: an absent port stays as it is (R29). -/
theorem runsTo_onPort {f : State → State} (hset : (s.regs p).setUp = true) (hf : SendsTo D s (f s)) :
    ∃ u, RunsTo (onPort p f s) u ∧ SendsTo D s u := by
  cases hp : (s.regs p).present with
  | true => exact ⟨f s, .inr (by simp [onPort, guardPort, hset, hp]), hf⟩
  | false => exact ⟨s, .inl (guardPort_absent hset hp _), sends_refl D s⟩

theorem runsTo_onPortIrq {f : State → State} (hset : (s.regs p).setUp = true) (hf : SendsTo D s (f s)) :
    ∃ u, RunsTo (onPortIrq p f s) u ∧ SendsTo D s u := by
  cases hp : (s.regs p).present with
  | true => exact ⟨f s, .inl (by simp [onPortIrq, guardPort, hset, hp]), hf⟩
  | false => exact ⟨s, .inl (guardPort_absent hset hp _), sends_refl D s⟩

/-- An operation of one port, but for its `SETUP`, completes or is stuck, and sends to the host of that port only. -/
theorem runsTo_exec_port (d : D p) (hi : instrPort i = some p) (hs : i ≠ .setup p) (hset : (s.regs p).setUp = true) :
    ∃ u, RunsTo (exec i s) u ∧ SendsTo D s u := by
  have r := sends_refl D s
  cases i with
  | irqHandler | mainEntry | runPass | transportService | idleWait | deviceReset => cases hi
  | setup _ => cases hi; exact absurd rfl hs
  | tick _ => cases hi; exact runsTo_onPort hset (sends_tick d r)
  | service _ => cases hi; exact runsTo_onPort hset (sends_service d r)
  | pollDisconnected _ => cases hi; exact runsTo_onPort hset (sends_pollDisconnected d r)
  | onAttach _ => cases hi; exact runsTo_onPort hset (sends_onAttach d r)
  | tickVbusOn _ => cases hi; exact runsTo_onPort hset (sends_tickVbusOn d r)
  | tickReady _ => cases hi; exact runsTo_onPort hset (sends_tickReady d r)
  | debounce _ => cases hi; exact runsTo_onPort hset (sends_debounce d r)
  | onTxComplete _ => cases hi; exact runsTo_onPort hset (sends_onTxComplete d r)
  | disconnect _ => cases hi; exact runsTo_onPort hset (sends_disconnect d r)
  | vbusOff _ => cases hi; exact runsTo_onPort hset (sends_vbusOff d r)
  | onMessage _ m => cases hi; exact runsTo_onPort hset (sends_onMessage d r m)
  | rxRequest _ m => cases hi; exact runsTo_onPort hset (sends_reply d r _ _ _ .dfpAccept)
  | rxGetSinkCap _ m | vdmDiscoverIdentityReq _ m =>
    cases hi; exact runsTo_onPort hset (sends_reply d r _ _ _ .ready)
  | rxVdm _ m => cases hi; exact runsTo_onPort hset (sends_rxVdm d r m)
  | txVdmSerialRoute _ => cases hi; exact runsTo_onPort hset (sends_txVdmSerialRoute d r)
  | rxEmpty _ m => cases hi; exact runsTo_onPort hset (sends_diag d r)
  | rxOther _ m => cases hi; exact runsTo_onPort hset (sends_diag_raise d r (.protocolViolationMsg p m) rfl)
  | vdmOther _ m => cases hi; exact runsTo_onPort hset (sends_diag_raise d r (.protocolViolationVdm p m) rfl)
  | vdmDiscoverIdentityAck _ m => cases hi; exact runsTo_onPort hset (sends_vdmDiscoverIdentityAck d r m)
  | rxSourceCap _ m | rxPrSwap _ m | rxDrSwap _ m =>
    cases hi; exact runsTo_onPort hset (sends_diag_tx d (sends_diag d r) _ _ _)
  | txSourceCap _ | txRequest _ | txAccept _ | txReject _ | txPsRdy _ | txSinkCap _ | txProbe _ | txIdentityAck _
  | txVdmReboot _ | txVdmDfuHold _ | txVdmPdReset _ => cases hi; exact runsTo_onPort hset (sends_diag_tx d r _ _ _)
  | evVbusGood _ => cases hi; exact runsTo_onPort hset (sends_evVbusGood d r)
  | evHardReset _ => cases hi; exact runsTo_onPort hset (sends_evHardReset d r)
  | evTxSuccess _ => cases hi; exact runsTo_onPort hset (sends_onTxComplete d (sends_diag d r))
  | evMsgRx _ => cases hi; exact runsTo_onPort hset (sends_evMsgRx d r)
  | rearm _ => cases hi; exact runsTo_onPort hset (sends_rearm d r)
  | muxPump _ => cases hi; exact runsTo_onPort hset (sends_muxPump d r)
  | pass _ b => cases hi; exact runsTo_onPort hset (sends_uartPut (sends_diag d r) p b)
  | escArm _ => cases hi; exact runsTo_onPort hset (sends_escArm d r)
  | escLiteral _ => cases hi; exact runsTo_onPort hset (sends_uartPut (sends_diag_disarm d r) p _)
  | cmdRebootTarget _ | cmdDebugProbe _ =>
    cases hi; exact runsTo_onPort hset (sends_diag_tx d (sends_diag_disarm d r) _ _ _)
  | cmdSelfReset _ => cases hi; exact runsTo_onPort hset (sends_cmdSelfReset d r)
  | cmdFwUpdate _ => cases hi; exact runsTo_onPort hset (sends_cmdFwUpdate d r)
  | cmdForceDisconnect _ => cases hi; exact runsTo_onPort hset (sends_cmdForceDisconnect d r)
  | cmdToggleVerbose _ => cases hi; exact runsTo_onPort hset (sends_cmdToggleVerbose d r)
  | cmdRoute1 _ | cmdRoute2 _ => cases hi; exact runsTo_onPort hset (sends_selectRoute d r _)
  | cmdHelp _ => cases hi; exact runsTo_onPort hset (sends_cmdHelp d r)
  | cmdDrop _ b => cases hi; exact runsTo_onPort hset (sends_diag_disarm d r)
  | breakBegin _ x => cases hi; exact runsTo_onPort hset (sends_uartBreak d r true)
  | breakEnd _ x => cases hi; exact runsTo_onPort hset (sends_uartBreak d r false)
  | uartRxIrq _ b => cases hi; exact ⟨_, .inl rfl, sends_uartReceive r p b⟩
  | ringPut _ b => cases hi; exact runsTo_onPortIrq hset (sends_ringPut r p b)
  | ringGet _ => cases hi; exact runsTo_onPort hset (sends_ringGetOp d r)
  | drainToHost _ => cases hi; exact runsTo_onPort hset (sends_drainToHost d r)

/-- On a device that is set up, every operation but a setup and a device reset completes or is stuck (R226(c), R246). -/
theorem runsTo_exec (d : ∀ p, D p) (hs : ∀ p, i ≠ .setup p) (hm : i ≠ .mainEntry) (hd : ∀ c, i ≠ .deviceReset c)
    (hup : DeviceUp s) : ∃ u, RunsTo (exec i s) u ∧ SendsTo D s u := by
  cases hi : instrPort i with
  | some p => exact runsTo_exec_port (d p) hi (hs p) (hup p)
  | none =>
    have r := sends_refl D s
    cases i with
    | irqHandler => exact ⟨_, .inl rfl, sends_chipIrq r⟩
    | idleWait => exact ⟨_, .inl rfl, sends_idleWait r⟩
    | transportService => exact ⟨_, .inr rfl, sends_transportService d r⟩
    | runPass => exact ⟨runPass s, .inr (by simp [exec, execRunPass, hup .p0, hup .p1]), sends_runPass d r⟩
    | mainEntry => exact absurd rfl hm
    | deviceReset c => exact absurd rfl (hd c)
    | _ => cases hi

end

end Sys2Proof.Machine

/-! ## The step (R220, R225, R228, R295) -/

namespace Sys2Proof.Machine

section
variable {D : Port → Prop} {p : Port} {s t u : State} {i : Instr}

/-! ### The selection of the next operation -/

theorem sends_fetch (D : Port → Prop) (s : State) : SendsTo D s (fetch s).2 := by
  have r := sends_refl D s
  unfold fetch
  split_ifs
  · exact r
  · exact sends_point r
  split
  next => exact r
  next p _ =>
    split_ifs
    · exact sends_takePending r p
    · exact sends_setPos r (afterTurn_ne_entry p)
  next p _ =>
    split_ifs
    · have hg := sends_hostTryRecv (sends_point r) p
      split
      next b u e => rw [e] at hg; exact hg
      next u e => rw [e] at hg; exact sends_setPos hg (afterTurn_ne_entry p)
    · exact sends_setPos r (afterTurn_ne_entry p)
  next => exact sends_setPos r (by decide)
  next => exact sends_idleTest r
  next => exact r

/-- Before `MAIN_ENTRY` nothing else is selected (R228, R280). -/
theorem fetch_of_entry (h : s.pos = .entry) :
    (fetch s).2.pos = .entry ∧ ∀ i, (fetch s).1 = some i → i = .mainEntry := by
  unfold fetch
  split_ifs
  · exact ⟨h, fun i e => nomatch e⟩
  · exact ⟨by simpa using h, fun i e => nomatch e⟩
  · rw [h]
    exact ⟨h, fun i e => (Option.some.inj e).symm⟩

theorem entry_of_fetch_mainEntry (h : (fetch s).1 = some .mainEntry) : s.pos = .entry := by
  unfold fetch at h
  split_ifs at h
  split at h
  next hpos => exact hpos
  next p _ =>
    dsimp only at h
    split_ifs at h
    cases h
  next p _ =>
    split_ifs at h
    split at h
    next b u _ => exact absurd (Option.some.inj h) (runsInPass_byteOp p _).notEntry
    next => cases h
  all_goals cases h

/-- What is selected: `MAIN_ENTRY` before it has run, an operation of a pass after it (R46, R220, R228). -/
theorem fetch_selects (h : (fetch s).1 = some i) :
    i = .mainEntry ∧ (fetch s).2.pos = .entry ∨ RunsInPass i ∧ (fetch s).2.pos ≠ .entry := by
  by_cases hpos : s.pos = .entry
  · obtain ⟨hp, hi⟩ := fetch_of_entry hpos
    exact .inl ⟨hi i h, hp⟩
  · refine .inr ⟨((fetch_cases s).2 i h).resolve_left ?_, (sends_fetch (fun _ => True) s).started hpos⟩
    rintro rfl
    exact hpos (entry_of_fetch_mainEntry h)

theorem started_fetch (h : Started s) : Started (fetch s).2 := by
  obtain ⟨hbefore, hafter⟩ := h
  have hset := mainStep_setUp (fetch_cases s).1
  by_cases hpos : s.pos = .entry
  · exact ⟨fun _ q => (hset q).trans (hbefore hpos q), fun hne => absurd (fetch_of_entry hpos).1 hne⟩
  · exact ⟨fun he => absurd he ((sends_fetch (fun _ => True) s).started hpos), fun _ q => (hset q).trans (hafter hpos q)⟩

/-! ### The selected operation -/

theorem setup_setUp (p : Port) (s : State) : ((setup p s).regs p).setUp = true := by simp [setup]

/-- `MAIN_ENTRY` sets up both ports (R228, R281). -/
theorem deviceUp_mainEntry (s : State) : DeviceUp (mainEntry s) := by
  intro p
  show ((setup .p1 (setup .p0 ((s.setWdogArmed false).setHalt .running))).regs p).setUp = true
  cases p with
  | p0 => rw [(setup_other (by decide) _).1, setup_setUp]
  | p1 => exact setup_setUp _ _

theorem mainEntry_cfg (s : State) : (mainEntry s).cfg = s.cfg := (setup_cfg .p1 _).trans (setup_cfg .p0 _)

theorem mainEntry_pos (s : State) : (mainEntry s).pos = passStart := rfl

theorem started_mainEntry (s : State) : Started (mainEntry s) :=
  ⟨fun e => absurd ((mainEntry_pos s).symm.trans e) (by decide), fun _ => deviceUp_mainEntry s⟩

theorem exec_mainEntry (h : ∀ p, (s.regs p).setUp = false) : exec .mainEntry s = stallOutcome (mainEntry s) := by
  simp [exec, execMainEntry, h]

/-- The selected operation completes or is stuck, keeps the environment's duty, and where it answers a state that is
`Started` again. -/
theorem exec_of_started (hs : Started s) (hi : i = .mainEntry ∧ s.pos = .entry ∨ RunsInPass i ∧ s.pos ≠ .entry) :
    ∃ u, RunsTo (exec i s) u ∧ SendsTo (fun _ => True) s u ∧ (exec i s = .next u → Started u ∧ u.cfg = s.cfg) := by
  obtain ⟨hbefore, hafter⟩ := hs
  obtain ⟨rfl, hpos⟩ | ⟨hi, hpos⟩ := hi
  · exact ⟨mainEntry s, .inr (exec_mainEntry (hbefore hpos)), sends_mainEntry (fun _ => trivial) (sends_refl _ s),
      fun _ => ⟨started_mainEntry s, mainEntry_cfg s⟩⟩
  · obtain ⟨u, hu, hsend⟩ :=
      runsTo_exec (D := fun _ => True) (fun _ => trivial) hi.notSetup hi.notEntry hi.notReset (hafter hpos)
    refine ⟨u, hu, hsend, fun h => ?_⟩
    have hm := mainStep_exec hi.notSetup hi.notEntry hi.notReset h
    exact ⟨⟨fun e => absurd e (hsend.started hpos), fun _ q => (mainStep_setUp hm q).trans (hafter hpos q)⟩, mainStep_cfg hm⟩

/-! ### The end of the step -/

/-- A device reset at the end of a step leaves `MAIN_ENTRY` to run on a device that is not set up (R227, R280). -/
theorem started_settle (h : Started s) : Started (settle s) := by
  unfold settle
  split_ifs
  · exact ⟨fun _ p => by cases p <;> rfl, fun hne => absurd rfl hne⟩
  · exact h

theorem settle_cfg (s : State) : (settle s).cfg = s.cfg := by unfold settle; split_ifs <;> rfl

/-- A device reset leaves the hosts and the schedule as they are (R50, R265). -/
theorem hostTakes_settle (h : HostTakes p s) : HostTakes p (settle s) := by
  obtain ⟨hst, ht⟩ := h
  unfold settle
  split_ifs
  · exact ⟨rfl, by cases p <;> exact ht⟩
  · exact ⟨hst, ht⟩

/-- A step, cut at its end: what the selection and the operation have run to before a device reset is taken. -/
theorem step_of_started (hs : Started s) : ∃ x u, step s = settleOutcome x ∧ RunsTo x u ∧ SendsTo (fun _ => True) s u ∧
    (x = .next u → Started u ∧ u.cfg = s.cfg) := by
  have hstart := started_fetch hs
  have hsend := sends_fetch (fun _ => True) s
  have hcfg := mainStep_cfg (fetch_cases s).1
  have hsel := @fetch_selects s
  unfold step
  cases hf : fetch s with
  | mk o v =>
    rw [hf] at hstart hsend hcfg hsel
    cases o with
    | none => exact ⟨.next v, v, rfl, .inl rfl, hsend, fun _ => ⟨hstart, hcfg⟩⟩
    | some i =>
      obtain ⟨u, hu, hsend', hnext⟩ := exec_of_started hstart (hsel rfl)
      refine ⟨exec i v, u, rfl, hu, sends_trans hsend hsend', fun e => ?_⟩
      obtain ⟨hstart', hcfg'⟩ := hnext e
      exact ⟨hstart', hcfg'.trans hcfg⟩

end

/-- Settles O4: a step runs to a state, and is stuck there only in a `HostSend`, which the environment's duty excludes. -/
theorem stepNeverStops : Obligations.StepNeverStops := by
  intro s hs
  obtain ⟨x, u, hstep, hrun, hsend, hkept⟩ := step_of_started hs
  have answers : x = .next u → step s = .next (settle u) ∧ Started (settle u) ∧ (settle u).cfg = s.cfg := fun hx => by
    obtain ⟨hstart, hcfg⟩ := hkept hx
    exact ⟨by rw [hstep, hx]; rfl, started_settle hstart, (settle_cfg u).trans hcfg⟩
  refine ⟨?_, fun hduty => ?_⟩
  · obtain hx | ⟨p, hx⟩ := next_or_stalled_of_runsTo hrun
    · exact .inl ⟨settle u, answers hx⟩
    · exact .inr ⟨p, by rw [hstep, hx]; rfl⟩
  · have hu : ∀ p, HostTakes p u := fun p => hsend.duty (fun q _ => hduty q) p (hduty p)
    obtain ⟨hnext, hstart, hcfg⟩ := answers (next_of_runsTo hrun (hostTakes_stalled (hu .p0)))
    exact ⟨settle u, hnext, hstart, fun p => hostTakes_settle (hu p), hcfg⟩

end Sys2Proof.Machine

/-! # The policy family: setup, attach, tick, debounce and disconnect of a port -/

/-! ## The CC predicates (R135, R136) -/

namespace Sys2Proof.Machine

theorem attachLevel_iff {c : Params} {l : Nat} : attachLevel c l = true ↔ c.attachThreshold ≤ l := by simp [attachLevel]

theorem anyAttach_iff {c : Params} {cc : Nat × Nat} :
    anyAttach c cc = true ↔ c.attachThreshold ≤ cc.1 ∨ c.attachThreshold ≤ cc.2 := by
  simp [anyAttach, attachLevel_iff]

theorem bothBelow_iff {c : Params} {cc : Nat × Nat} :
    bothBelow c cc = true ↔ cc.1 < c.attachThreshold ∧ cc.2 < c.attachThreshold := by
  rw [bothBelow, Bool.not_eq_true', ← Bool.not_eq_true, anyAttach_iff, not_or, not_le, not_le]

theorem wantVconn_iff {cc : Nat × Nat} : wantVconn cc = true ↔ cc.1 ≠ 0 ∧ cc.2 ≠ 0 := by simp [wantVconn]

/-- Settles O16: one lemma per predicate. -/
theorem ccPredicates : Obligations.CcPredicates := fun _ _ => ⟨anyAttach_iff, bothBelow_iff, rfl, wantVconn_iff⟩

/-- Every reading is in the chip's range (R63). -/
theorem ccLevels_le (s : State) (p : Port) : (ccLevels s p).1 ≤ s.cfg.ccMax ∧ (ccLevels s p).2 ≤ s.cfg.ccMax :=
  ⟨min_le_right _ _, min_le_right _ _⟩

end Sys2Proof.Machine

/-! ## What `MAIN` keeps in every environment

One lemma per primitive for `MainKept`, and for `OthersKept` one per way a run of an operation of port `p` goes on. -/

namespace Sys2Proof.Machine

section
variable {p : Port} {s t u : State}

theorem mainKept_refl (s : State) : MainKept s s := by constructor <;> simp

theorem mainKept_trans (h : MainKept s t) (h' : MainKept t u) : MainKept s u where
  cfg := h'.cfg.trans h.cfg
  regs q := (h'.regs q).trans (h.regs q)
  out q := (h'.out q).trans (h.out q)
  wdogArmed := h'.wdogArmed.trans h.wdogArmed
  halt := h'.halt.trans h.halt
  pos := h'.pos.trans h.pos
  ret := h'.ret.trans h.ret

theorem mainKept_point (s : State) : MainKept s (point s) := by constructor <;> simp
theorem mainKept_diag (p : Port) (s : State) : MainKept s (diag p s) := by constructor <;> simp
theorem mainKept_delay (p : Port) (d : DelayKind) (s : State) : MainKept s (delay p d s) := by constructor <;> simp
theorem mainKept_raise (c : Condition) (s : State) : MainKept s (raise c s) := by constructor <;> simp
theorem mainKept_tcpcReset (p : Port) (s : State) : MainKept s (tcpcReset p s) := by constructor <;> simp
theorem mainKept_diag_tx (p : Port) (k : TxKind) (c : MsgCode) (o : Objs) (s : State) :
    MainKept s (tx p k c o (diag p s)) := by constructor <;> simp

theorem othersKept_refl (p : Port) (s : State) : OthersKept p s s := by constructor <;> simp

theorem othersKept_trans (h : OthersKept p s t) (h' : OthersKept p t u) : OthersKept p s u where
  cfg := h'.cfg.trans h.cfg
  regs q e := (h'.regs q e).trans (h.regs q e)
  out q e := (h'.out q e).trans (h.out q e)
  wdogArmed := h'.wdogArmed.trans h.wdogArmed
  halt := h'.halt.trans h.halt
  pos := h'.pos.trans h.pos
  ret := h'.ret.trans h.ret

theorem othersKept_of_mainKept (h : MainKept s t) : OthersKept p s t where
  cfg := h.cfg
  regs q _ := h.regs q
  out q _ := h.out q
  wdogArmed := h.wdogArmed
  halt := h.halt
  pos := h.pos
  ret := h.ret

/-- A continuation that keeps every field of `MAIN`. -/
theorem othersKept_keep (h : OthersKept p s t) (hk : MainKept t u) : OthersKept p s u :=
  othersKept_trans h (othersKept_of_mainKept hk)

theorem othersKept_updRegs (h : OthersKept p s t) (f : PortRegs → PortRegs) : OthersKept p s (t.updRegs p f) :=
  othersKept_trans h (by constructor <;> simp +contextual)

theorem othersKept_updOut (h : OthersKept p s t) (f : Outputs → Outputs) : OthersKept p s (t.updOut p f) :=
  othersKept_trans h (by constructor <;> simp +contextual)

theorem othersKept_outWrite (h : OthersKept p s t) (w : OutWrite) : OthersKept p s (outWrite p w t) :=
  othersKept_trans h (by constructor <;> simp +contextual)

theorem othersKept_outWritePair (h : OthersKept p s t) (v w : OutWrite) : OthersKept p s (outWritePair p v w t) :=
  othersKept_trans h (by constructor <;> simp +contextual)

/-! ### The operations of the policy engine -/

theorem othersKept_vbusOff (h : OthersKept p s t) : OthersKept p s (vbusOff p t) :=
  othersKept_outWrite (othersKept_keep (othersKept_outWrite (othersKept_keep h (mainKept_diag p _)) _)
    (mainKept_delay p _ _)) _

theorem othersKept_disconnect (h : OthersKept p s t) : OthersKept p s (disconnect p t) :=
  othersKept_updRegs (othersKept_outWrite (othersKept_outWrite (othersKept_outWrite
    (othersKept_vbusOff (othersKept_keep h (mainKept_diag p _))) _) _) _) disconnectedRegs

theorem othersKept_outWrite_if (h : OthersKept p s t) (c : Bool) (w : OutWrite) :
    OthersKept p s (if c then outWrite p w t else t) := by
  split_ifs
  · exact othersKept_outWrite h w
  · exact h

theorem othersKept_attach (h : OthersKept p s t) (cc : Nat × Nat) : OthersKept p s (attach p cc t) := by
  have h1 := othersKept_outWrite (othersKept_outWrite (othersKept_keep h (mainKept_tcpcReset p t)) (.hdrRole .source))
    (.vconn false)
  have h2 := othersKept_outWrite (othersKept_updRegs h1 fun r => { r with pol := selectPolarity cc })
    (.chipPol (chipPolOf (selectPolarity cc)))
  have h3 := othersKept_outWrite (othersKept_outWrite (othersKept_outWrite_if h2 (wantVconn cc) (.vconn true)) (.rxEn true))
    (.vbus .on)
  exact othersKept_keep (othersKept_updRegs h3 _) (mainKept_diag_tx p _ _ _ _)

theorem tickVbusOn_of_counting (h : (s.regs p).sct < Config.srcCapRetry) :
    tickVbusOn p s = (diag p s).updRegs p fun r => { r with sct := r.sct + 1 } := if_neg (by simpa using h)

theorem tickVbusOn_of_retry (h : Config.srcCapRetry ≤ (s.regs p).sct) : tickVbusOn p s =
    (txProbe p (txSourceCap p ((diag p s).updRegs p fun r => { r with sct := r.sct + 1 }))).updRegs p
      fun r => { r with sct := 0 } := if_pos (by simpa using Nat.lt_succ_of_le h)

theorem othersKept_tickVbusOn (h : OthersKept p s t) : OthersKept p s (tickVbusOn p t) := by
  have hn := othersKept_updRegs (othersKept_keep h (mainKept_diag p t)) fun r => { r with sct := r.sct + 1 }
  obtain hc | hc := lt_or_ge (t.regs p).sct Config.srcCapRetry
  · rw [tickVbusOn_of_counting hc]; exact hn
  · rw [tickVbusOn_of_retry hc]
    exact othersKept_updRegs (othersKept_keep (othersKept_keep hn (mainKept_diag_tx p _ _ _ _))
      (mainKept_diag_tx p _ _ _ _)) _

theorem othersKept_tickReady (h : OthersKept p s t) : OthersKept p s (tickReady p t) :=
  othersKept_updRegs (othersKept_keep h (mainKept_diag p t)) _

theorem othersKept_txVdmSerialRoute (h : OthersKept p s t) : OthersKept p s (txVdmSerialRoute p t) :=
  othersKept_outWritePair (othersKept_keep h (mainKept_diag_tx p _ _ _ _)) _ _

end

section
variable {p : Port} {s : State}

theorem tickVbusOn_out (p : Port) (s : State) : (tickVbusOn p s).out p = s.out p := by
  obtain hc | hc := lt_or_ge (s.regs p).sct Config.srcCapRetry
  · simp [tickVbusOn_of_counting hc]
  · simp [tickVbusOn_of_retry hc, txSourceCap, txProbe]

theorem tickVbusOn_regs (p : Port) (s : State) : (tickVbusOn p s).regs p =
    { s.regs p with sct := if (s.regs p).sct < Config.srcCapRetry then (s.regs p).sct + 1 else 0 } := by
  obtain hc | hc := lt_or_ge (s.regs p).sct Config.srcCapRetry
  · simp [tickVbusOn_of_counting hc, hc]
  · simp [tickVbusOn_of_retry hc, txSourceCap, txProbe, not_lt.mpr hc]

theorem tickReady_regs (p : Port) (s : State) : (tickReady p s).regs p = { s.regs p with ps := .idle } := by
  simp [tickReady]

theorem tickReady_out (p : Port) (s : State) : (tickReady p s).out p = s.out p := by simp [tickReady]

@[simp] theorem txVdmSerialRoute_regs (p q : Port) (s : State) : (txVdmSerialRoute p s).regs q = s.regs q := by
  simp [txVdmSerialRoute]

theorem txVdmSerialRoute_out (p : Port) (s : State) : (txVdmSerialRoute p s).out p = { s.out p with
    laneSwap := routeLaneSwap (s.regs p).route (s.regs p).pol, srcSel := routeSrcSel (s.regs p).route } := by
  simp [txVdmSerialRoute, writeOutput]

/-! ### Completion -/

/-- An operation of a live port that sends to that port's host only completes while the environment does its duty toward
the port (R229). -/
theorem onPort_completes (hl : s.live p = true) (ht : HostTakes p s) {f : State → State}
    (hf : SendsTo (· = p) s (f s)) : onPort p f s = .next (f s) :=
  onPort_live hl f (hostTakes_stalled (hf.duty (fun _ e => e ▸ ht) p ht))

end

end Sys2Proof.Machine

/-! ## Runs of `MAIN` in a quiet environment -/

namespace Sys2Proof.Machine

/-- A run of `MAIN` in a quiet environment has led to `t`: still quiet, and `t` is the state `v` but for the free-value
counter and the trace, to which the named events `es` were added. -/
structure QuietRun (v t : State) (es : List Event) : Prop where
  quiet : Quiet t
  notes : Notes v t es

section
variable {p : Port} {s t v : State} {es : List Event}

theorem quietRun_refl (h : Quiet s) : QuietRun s s [] := ⟨h, notes_refl s⟩

theorem quietRun_regs (h : QuietRun v t es) (q : Port) : t.regs q = v.regs q := (notes_mainKept h.notes).regs q
theorem quietRun_cfg (h : QuietRun v t es) : t.cfg = v.cfg := (notes_mainKept h.notes).cfg
theorem quietRun_env (h : QuietRun v t es) (q : Port) : t.env q = v.env q := (notes_boundaryKept h.notes).env q
theorem quietRun_ccLevels (h : QuietRun v t es) (q : Port) : ccLevels t q = ccLevels v q := by
  simp only [ccLevels, quietRun_env h, quietRun_cfg h]

theorem quietRun_congr {w : State} (h : QuietRun v t es) (e : w = v) : QuietRun w t es := e ▸ h

/-- A continuation that changes nothing but the counter and the trace. -/
theorem quietRun_note {u : State} {fs : List Event} (h : QuietRun v t es) (hn : Notes t u fs) :
    QuietRun v u (es ++ fs) := ⟨notes_quiet hn h.quiet, notes_trans h.notes hn⟩

theorem quietRun_diag (h : QuietRun v t es) (p : Port) : QuietRun v (diag p t) es := by
  simpa using quietRun_note h (notes_diag h.quiet p)

theorem quietRun_point (h : QuietRun v t es) : QuietRun v (point t) es := by rwa [point_of_quiet h.quiet]

theorem quietRun_delay (h : QuietRun v t es) (p : Port) (d : DelayKind) :
    QuietRun v (delay p d t) (es ++ [.delay p d]) := quietRun_note h (notes_delay h.quiet p d)

theorem quietRun_raise_hardFailure (h : QuietRun v t es) (p : Port) (c : HardCause) :
    QuietRun v (raise (.hardFailure p c) t) (es ++ [.raised (.hardFailure p c)]) :=
  quietRun_note h (notes_raise h.quiet (.hardFailure p c))

/-- One transmission after the optional `DIAG` lines, with the message that `Tx` builds (R149). -/
theorem quietRun_diag_tx (h : QuietRun v t es) (p : Port) (k : TxKind) (c : MsgCode) (o : Objs) :
    ∃ m, TxMessage v p c o m ∧ QuietRun v (tx p k c o (diag p t)) (es ++ [.tx p k m]) := by
  obtain ⟨m, hm, hn⟩ := notes_diag_tx h.quiet p k c o
  have hk := notes_mainKept h.notes
  exact ⟨m, txMessage_congr hk.cfg (by rw [hk.out]) hm, quietRun_note h hn⟩

theorem quietRun_updRegs (h : QuietRun v t es) (p : Port) (f : PortRegs → PortRegs)
    (hf : ∀ r, (f r).present = r.present) (hu : ∀ r, (f r).setUp = r.setUp) :
    QuietRun (v.updRegs p f) (t.updRegs p f) es := ⟨quiet_updRegs h.quiet p f hf hu, notes_updRegs h.notes p f⟩

theorem quietRun_outWrite (h : QuietRun v t es) (p : Port) (w : OutWrite) :
    QuietRun (v.updOut p (writeOutput w)) (outWrite p w t) (es ++ [.out p w]) :=
  ⟨quiet_outWrite h.quiet p w, notes_then_out h.notes h.quiet p w⟩

theorem quietRun_outWritePair (h : QuietRun v t es) (p : Port) (x w : OutWrite) :
    QuietRun (v.updOut p fun o => writeOutput w (writeOutput x o)) (outWritePair p x w t) (es ++ [.out p x, .out p w]) :=
  ⟨quiet_outWritePair h.quiet p x w, notes_trans (notes_updOut h.notes p _) (notes_outWritePair h.quiet p x w)⟩

/-! ### Writes of one port, gathered -/

theorem updOut_updOut (s : State) (p : Port) (f g : Outputs → Outputs) :
    (s.updOut p f).updOut p g = s.updOut p fun o => g (f o) := by cases p <;> rfl

theorem updOut_congr {f g : Outputs → Outputs} (h : f (s.out p) = g (s.out p)) : s.updOut p f = s.updOut p g := by
  rw [State.updOut, State.updOut, h]

theorem updOut_id (s : State) (p : Port) : (s.updOut p fun o => o) = s := by cases p <;> rfl

theorem updRegs_congr {f g : PortRegs → PortRegs} (h : f (s.regs p) = g (s.regs p)) : s.updRegs p f = s.updRegs p g := by
  rw [State.updRegs, State.updRegs, h]

theorem updRegs_id (s : State) (p : Port) : (s.updRegs p fun r => r) = s := by cases p <;> rfl

theorem updRegs_updRegs (s : State) (p : Port) (f g : PortRegs → PortRegs) :
    (s.updRegs p f).updRegs p g = s.updRegs p fun r => g (f r) := by cases p <;> rfl

theorem updOut_updRegs (s : State) (p : Port) (f : PortRegs → PortRegs) (g : Outputs → Outputs) :
    (s.updRegs p f).updOut p g = (s.updOut p g).updRegs p f := by cases p <;> rfl

theorem boundaryKept_refl (s : State) : BoundaryKept s s := by constructor <;> simp

theorem boundaryKept_trans {u : State} (h : BoundaryKept s t) (h' : BoundaryKept t u) : BoundaryKept s u where
  shared q := (h'.shared q).trans (h.shared q)
  env q := (h'.env q).trans (h.env q)
  registers q a := (h'.registers q a).trans (h.registers q a)
  calls := h'.calls.trans h.calls
  sched := h'.sched.trans h.sched
  resetReq := h'.resetReq.trans h.resetReq
  wake := h'.wake.trans h.wake

/-- Nothing but the record and the outputs of port `p` was written between `s` and `v`. -/
structure Rewritten (p : Port) (s v : State) : Prop where
  others : OthersKept p s v
  boundary : BoundaryKept s v
  trace : v.trace = s.trace

theorem rewritten_refl (p : Port) (s : State) : Rewritten p s s := ⟨othersKept_refl p s, boundaryKept_refl s, rfl⟩

theorem rewritten_updRegs (h : Rewritten p s v) (f : PortRegs → PortRegs) : Rewritten p s (v.updRegs p f) :=
  ⟨othersKept_updRegs h.others f, boundaryKept_trans h.boundary (by constructor <;> simp), by simpa using h.trace⟩

theorem rewritten_updOut (h : Rewritten p s v) (f : Outputs → Outputs) : Rewritten p s (v.updOut p f) :=
  ⟨othersKept_updOut h.others f, boundaryKept_trans h.boundary (by constructor <;> simp), by simpa using h.trace⟩

/-- What a quiet run leaves that has written, of everything, the record and the outputs of port `p`. -/
theorem quietRun_frame (h : QuietRun v t es) (hv : Rewritten p s v) :
    OthersKept p s t ∧ BoundaryKept s t ∧ t.regs p = v.regs p ∧ t.out p = v.out p ∧ Adds s t es := by
  have hk := notes_mainKept h.notes
  refine ⟨othersKept_keep hv.others hk, boundaryKept_trans hv.boundary (notes_boundaryKept h.notes), hk.regs p,
    hk.out p, ?_⟩
  have ha := notes_adds h.notes
  rwa [Adds, hv.trace] at ha

/-- The part of `quietRun_frame` that holds in no other environment. -/
theorem quietRun_boundary (h : QuietRun v t es) (hv : Rewritten p s v) : BoundaryKept s t ∧ Adds s t es := by
  obtain ⟨-, hb, -, -, ha⟩ := quietRun_frame h hv
  exact ⟨hb, ha⟩

/-- As `quietRun_frame`, of a run that has written nothing. -/
theorem quietRun_kept (h : QuietRun s t es) : MainKept s t ∧ BoundaryKept s t ∧ Adds s t es :=
  ⟨notes_mainKept h.notes, notes_boundaryKept h.notes, notes_adds h.notes⟩

/-! ### The operations of the policy engine -/

theorem quietRun_vbusOff (h : QuietRun v t es) (p : Port) :
    QuietRun (v.updOut p fun o => { o with vbus := .released }) (vbusOff p t)
      (es ++ [.out p (.vbus .offDriven), .delay p .vbusSettle, .out p (.vbus .released)]) := by
  have h1 := quietRun_outWrite (quietRun_diag h p) p (.vbus .offDriven)
  have h2 := quietRun_outWrite (quietRun_delay h1 p .vbusSettle) p (.vbus .released)
  simpa [vbusOff, updOut_updOut, writeOutput] using h2

theorem quietRun_disconnect (h : QuietRun v t es) (p : Port) :
    QuietRun ((v.updOut p disconnectedOut).updRegs p disconnectedRegs) (disconnect p t) (es ++ disconnectEvents p) := by
  have h1 := quietRun_vbusOff (quietRun_diag h p) p
  have h2 := quietRun_outWrite (quietRun_outWrite (quietRun_outWrite h1 p (.vconn false)) p (.rxEn false)) p
    (.ccRole .srcPlain)
  simp only [updOut_updOut, List.append_assoc] at h2
  exact quietRun_updRegs h2 p disconnectedRegs (fun _ => rfl) fun _ => rfl

theorem quietRun_tickReady (h : QuietRun v t es) (p : Port) :
    QuietRun (v.updRegs p fun r => { r with ps := .idle }) (tickReady p t) es :=
  quietRun_updRegs (quietRun_diag h p) p _ (fun _ => rfl) fun _ => rfl

theorem quietRun_txSourceCap (h : QuietRun v t es) (p : Port) :
    ∃ m, TxMessage v p .sourceCap v.cfg.srcCapObjs m ∧ QuietRun v (txSourceCap p t) (es ++ [.tx p .sourceCap m]) := by
  simpa [txSourceCap, quietRun_cfg h] using quietRun_diag_tx h p .sourceCap .sourceCap v.cfg.srcCapObjs

theorem quietRun_txProbe (h : QuietRun v t es) (p : Port) :
    ∃ m, TxMessage v p v.cfg.probeCode v.cfg.probeObjs m ∧ QuietRun v (txProbe p t) (es ++ [.tx p .probe m]) := by
  simpa [txProbe, quietRun_cfg h] using quietRun_diag_tx h p .probe v.cfg.probeCode v.cfg.probeObjs

/-- A counting tick of the retry timer transmits nothing (R124). -/
theorem quietRun_tickVbusOn_counts (h : QuietRun v t es) (hs : (v.regs p).sct < Config.srcCapRetry) :
    QuietRun (v.updRegs p fun r => { r with sct := r.sct + 1 }) (tickVbusOn p t) es := by
  rw [tickVbusOn_of_counting (by rwa [quietRun_regs h])]
  exact quietRun_updRegs (quietRun_diag h p) p _ (fun _ => rfl) fun _ => rfl

/-- The tick past the threshold retransmits, probes and clears the timer (R124, D7). -/
theorem quietRun_tickVbusOn_retransmits (h : QuietRun v t es) (hs : Config.srcCapRetry ≤ (v.regs p).sct) :
    ∃ m m', TxMessage v p .sourceCap v.cfg.srcCapObjs m ∧ TxMessage v p v.cfg.probeCode v.cfg.probeObjs m' ∧
      QuietRun (v.updRegs p fun r => { r with sct := 0 }) (tickVbusOn p t)
        (es ++ [.tx p .sourceCap m, .tx p .probe m']) := by
  rw [tickVbusOn_of_retry (by rwa [quietRun_regs h])]
  have h1 := quietRun_updRegs (quietRun_diag h p) p (fun r => { r with sct := r.sct + 1 }) (fun _ => rfl) fun _ => rfl
  obtain ⟨m, hm, h2⟩ := quietRun_txSourceCap h1 p
  obtain ⟨m', hm', h3⟩ := quietRun_txProbe h2 p
  have h4 := quietRun_updRegs h3 p (fun r => { r with sct := 0 }) (fun _ => rfl) fun _ => rfl
  exact ⟨m, m', by simpa [TxMessage] using hm, by simpa [TxMessage] using hm', by simpa [updRegs_updRegs] using h4⟩

/-- The serial-route VDM of the current route, then its two routing outputs (R164, R165). -/
theorem quietRun_txVdmSerialRoute (h : QuietRun v t es) (p : Port) :
    ∃ m, TxMessage v p .vendorDefined (actionObjs v.cfg.actions (.serialRoute (v.regs p).route)) m ∧
      QuietRun (v.updOut p fun o => { o with
          laneSwap := routeLaneSwap (v.regs p).route (v.regs p).pol, srcSel := routeSrcSel (v.regs p).route })
        (txVdmSerialRoute p t) (es ++ [.tx p (.vdmSerialRoute (v.regs p).route) m,
          .out p (.laneSwap (routeLaneSwap (v.regs p).route (v.regs p).pol)),
          .out p (.srcSel (routeSrcSel (v.regs p).route))]) := by
  obtain ⟨m, hm, h1⟩ := quietRun_diag_tx h p (.vdmSerialRoute (v.regs p).route) .vendorDefined
    (actionObjs v.cfg.actions (.serialRoute (v.regs p).route))
  have h2 := quietRun_outWritePair h1 p (.laneSwap (routeLaneSwap (v.regs p).route (v.regs p).pol))
    (.srcSel (routeSrcSel (v.regs p).route))
  exact ⟨m, hm, by simpa [txVdmSerialRoute, txAction, writeOutput, quietRun_regs h, quietRun_cfg h] using h2⟩

end

end Sys2Proof.Machine

/-! ## Operations that complete in every environment that does its duty (R229) -/

namespace Sys2Proof.Machine

section
variable {p : Port} {s : State}

/-- Settles O26: one run of the operation, read in every environment and in a quiet one. -/
theorem vbusOffDrivesWaitsReleases : Obligations.VbusOffDrivesWaitsReleases := by
  intro s p hl ht
  exact ⟨vbusOff p s, onPort_completes hl ht (sends_vbusOff rfl (sends_refl _ s)),
    othersKept_vbusOff (othersKept_refl p s), vbusOff_regs s p p, by simp, fun hq =>
      quietRun_boundary (quietRun_vbusOff (quietRun_refl hq) p) (rewritten_updOut (rewritten_refl p s) _)⟩

/-- Settles O22: the one write after the `DIAG` lines. -/
theorem tickReadyStepsToIdle : Obligations.TickReadyStepsToIdle := by
  intro s p hl ht
  exact ⟨tickReady p s, onPort_completes hl ht (sends_tickReady rfl (sends_refl _ s)),
    othersKept_tickReady (othersKept_refl p s), tickReady_out p s, tickReady_regs p s, fun hq =>
      quietRun_boundary (quietRun_tickReady (quietRun_refl hq) p) (rewritten_updRegs (rewritten_refl p s) _)⟩

/-- Settles O21: `SRCCAP_RETRY` is 37. -/
theorem tickVbusOnCountsThenRetransmits : Obligations.TickVbusOnCountsThenRetransmits := by
  intro s p hl ht
  have hw : ∀ f, Rewritten p s (s.updRegs p f) := rewritten_updRegs (rewritten_refl p s)
  refine ⟨tickVbusOn p s, onPort_completes hl ht (sends_tickVbusOn rfl (sends_refl _ s)),
    othersKept_tickVbusOn (othersKept_refl p s), tickVbusOn_out p s, tickVbusOn_regs p s, fun hq => ?_⟩
  have r := quietRun_refl hq
  by_cases hc : (s.regs p).sct < 37
  · obtain ⟨hb, ha⟩ := quietRun_boundary (quietRun_tickVbusOn_counts r hc) (hw _)
    exact ⟨hb, fun _ => ha, fun h => absurd h (by omega)⟩
  · obtain ⟨m, m', hm, hm', hr⟩ := quietRun_tickVbusOn_retransmits r (not_lt.mp hc)
    obtain ⟨hb, ha⟩ := quietRun_boundary hr (hw _)
    exact ⟨hb, fun h => absurd h hc, fun _ => ⟨m, m', hm, hm', ha⟩⟩

/-- `DISCONNECT`, run from any state that `s` has led to with `MAIN`'s fields kept, leaves the port at rest (R129). -/
theorem disconnect_atRest {u : State} (hk : MainKept s u) : OthersKept p s (disconnect p u) ∧
    (disconnect p u).regs p = disconnectedRegs (s.regs p) ∧ (disconnect p u).out p = disconnectedOut (s.out p) :=
  ⟨othersKept_disconnect (othersKept_of_mainKept hk), by simp [hk.regs], by simp [hk.out]⟩

/-- Settles O25: the event of a hard reset is the condition recorded, then `DISCONNECT`. -/
theorem disconnectReturnsToRest : Obligations.DisconnectReturnsToRest := by
  intro s p hl ht ies hies
  have hw : Rewritten p s ((s.updOut p disconnectedOut).updRegs p disconnectedRegs) :=
    rewritten_updRegs (rewritten_updOut (rewritten_refl p s) _) _
  simp only [List.mem_cons, List.not_mem_nil, or_false] at hies
  obtain rfl | rfl := hies
  · obtain ⟨ho, hr, hout⟩ := disconnect_atRest (p := p) (mainKept_refl s)
    exact ⟨disconnect p s, onPort_completes hl ht (sends_disconnect rfl (sends_refl _ s)), ho, hr, hout, fun hq =>
      quietRun_boundary (quietRun_disconnect (quietRun_refl hq) p) hw⟩
  · obtain ⟨ho, hr, hout⟩ := disconnect_atRest (p := p)
      (mainKept_trans (mainKept_diag p s) (mainKept_raise (.hardFailure p .hardReset) _))
    refine ⟨evHardReset p s, onPort_completes hl ht (sends_evHardReset rfl (sends_refl _ s)), ho, hr, hout,
      fun hq => ?_⟩
    have h1 := quietRun_raise_hardFailure (quietRun_diag (quietRun_refl hq) p) p .hardReset
    exact quietRun_boundary (quietRun_disconnect h1 p) hw

/-! ### A completed transmission (R128) -/

theorem onTxComplete_of_dfpVbusOn (h : (s.regs p).ps = .dfpVbusOn) : onTxComplete p s =
    txVdmSerialRoute p ((diag p s).updRegs p fun r => { r with ps := .dfpConnected }) := by simp [onTxComplete, h]

theorem onTxComplete_of_dfpAccept (h : (s.regs p).ps = .dfpAccept) : onTxComplete p s =
    (txPsRdy p (diag p s)).updRegs p fun r => { r with ps := .idle } := by simp [onTxComplete, h]

theorem onTxComplete_of_other (h : (s.regs p).ps ≠ .dfpVbusOn) (h' : (s.regs p).ps ≠ .dfpAccept) :
    onTxComplete p s = diag p s := by
  unfold onTxComplete
  cases e : (s.regs p).ps with
  | dfpVbusOn => exact absurd e h
  | dfpAccept => exact absurd e h'
  | _ => simp [e]

/-- What a completed transmission has done to port `p` between `s` and `t`, by the policy state in `s` (R128). -/
structure TxCompleted (p : Port) (s t : State) : Prop where
  ofVbusOn : (s.regs p).ps = .dfpVbusOn → OthersKept p s t ∧ t.regs p = { s.regs p with ps := .dfpConnected } ∧
    t.out p = { s.out p with
      laneSwap := routeLaneSwap (s.regs p).route (s.regs p).pol, srcSel := routeSrcSel (s.regs p).route } ∧
    (Quiet s → BoundaryKept s t ∧ ∃ m,
      TxMessage s p .vendorDefined (actionObjs s.cfg.actions (.serialRoute (s.regs p).route)) m ∧
      Adds s t [.tx p (.vdmSerialRoute (s.regs p).route) m,
        .out p (.laneSwap (routeLaneSwap (s.regs p).route (s.regs p).pol)),
        .out p (.srcSel (routeSrcSel (s.regs p).route))])
  ofAccept : (s.regs p).ps = .dfpAccept → OthersKept p s t ∧ t.regs p = { s.regs p with ps := .idle } ∧
    t.out p = s.out p ∧
    (Quiet s → BoundaryKept s t ∧ ∃ m, TxMessage s p .psRdy (Objs.clip []) m ∧ Adds s t [.tx p .psRdy m])
  ofOther : (s.regs p).ps ≠ .dfpVbusOn → (s.regs p).ps ≠ .dfpAccept →
    MainKept s t ∧ (Quiet s → BoundaryKept s t ∧ Adds s t [])

/-- `ON_TX_COMPLETE` run from a state `u` that `s` has led to by `DIAG` lines only. -/
theorem txCompleted_onTxComplete {u : State} (hk : MainKept s u) (hn : Quiet s → QuietRun s u []) :
    TxCompleted p s (onTxComplete p u) := by
  have hd := mainKept_trans hk (mainKept_diag p u)
  have ho : OthersKept p s (diag p u) := othersKept_of_mainKept hd
  refine ⟨fun e => ?_, fun e => ?_, fun e e' => ?_⟩
  · rw [onTxComplete_of_dfpVbusOn (by rw [hk.regs, e])]
    refine ⟨othersKept_txVdmSerialRoute (othersKept_updRegs ho _), by simp [hk.regs],
      by simp [txVdmSerialRoute_out, hk.regs, hk.out], fun hq => ?_⟩
    have h1 := quietRun_updRegs (quietRun_diag (hn hq) p) p (fun r => { r with ps := .dfpConnected }) (fun _ => rfl)
      fun _ => rfl
    obtain ⟨m, hm, h2⟩ := quietRun_txVdmSerialRoute h1 p
    obtain ⟨hb, ha⟩ := quietRun_boundary h2 (rewritten_updOut (rewritten_updRegs (rewritten_refl p s) _) _)
    exact ⟨hb, m, by simpa [TxMessage] using hm, by simpa using ha⟩
  · rw [onTxComplete_of_dfpAccept (by rw [hk.regs, e])]
    refine ⟨othersKept_updRegs (othersKept_keep ho (mainKept_diag_tx p _ _ _ _)) _, by simp [txPsRdy, hk.regs],
      by simp [txPsRdy, hk.out], fun hq => ?_⟩
    obtain ⟨m, hm, h1⟩ := quietRun_diag_tx (quietRun_diag (hn hq) p) p .psRdy .psRdy (Objs.clip [])
    have h2 := quietRun_updRegs h1 p (fun r => { r with ps := .idle }) (fun _ => rfl) fun _ => rfl
    obtain ⟨hb, ha⟩ := quietRun_boundary h2 (rewritten_updRegs (rewritten_refl p s) _)
    exact ⟨hb, m, hm, ha⟩
  · rw [onTxComplete_of_other (by rwa [hk.regs]) (by rwa [hk.regs])]
    exact ⟨hd, fun hq => quietRun_boundary (quietRun_diag (hn hq) p) (rewritten_refl p s)⟩

/-- Settles O24: the transmit-success event is `ON_TX_COMPLETE` after its own `DIAG` lines (R175). -/
theorem txCompleteAdvances : Obligations.TxCompleteAdvances := by
  intro s p i hl ht hi
  obtain rfl | rfl := hi
  · have h := txCompleted_onTxComplete (p := p) (mainKept_refl s) quietRun_refl
    exact ⟨onTxComplete p s, onPort_completes hl ht (sends_onTxComplete rfl (sends_refl _ s)), h.ofVbusOn, h.ofAccept,
      h.ofOther⟩
  · have h := txCompleted_onTxComplete (p := p) (mainKept_diag p s) fun hq => quietRun_diag (quietRun_refl hq) p
    exact ⟨onTxComplete p (diag p s), onPort_completes hl ht (sends_onTxComplete rfl (sends_diag rfl (sends_refl _ s))),
      h.ofVbusOn, h.ofAccept, h.ofOther⟩

end

end Sys2Proof.Machine

/-! ## Attach (R122, R123, R126) -/

namespace Sys2Proof.Machine

section
variable {p : Port} {s t v : State} {es : List Event}

/-- Where `ON_ATTACH` reads the levels (R123). -/
def attachPoint (p : Port) (s : State) : State := point (diag p s)

theorem mainKept_attachPoint (p : Port) (s : State) : MainKept s (attachPoint p s) :=
  mainKept_trans (mainKept_diag p s) (mainKept_point _)

theorem onAttach_of_anyAttach (h : anyAttach (attachPoint p s).cfg (ccLevels (attachPoint p s) p) = true) :
    onAttach p s = attach p (ccLevels (attachPoint p s) p) (attachPoint p s) := if_pos h

theorem onAttach_of_not_anyAttach (h : anyAttach (attachPoint p s).cfg (ccLevels (attachPoint p s) p) = false) :
    onAttach p s = attachPoint p s := if_neg (Bool.not_eq_true _ ▸ h)

theorem pollDisconnected_of_anyAttach (h : anyAttach (attachPoint p s).cfg (ccLevels (attachPoint p s) p) = true) :
    pollDisconnected p s = onAttach p (attachPoint p s) := if_pos h

theorem pollDisconnected_of_not_anyAttach (h : anyAttach (attachPoint p s).cfg (ccLevels (attachPoint p s) p) = false) :
    pollDisconnected p s = delay p (.pollSleep Config.pollSleepMs) (attachPoint p s) := if_neg (Bool.not_eq_true _ ▸ h)

theorem tick_of_disconnected (h : (s.regs p).ps = .disconnected) : tick p s = pollDisconnected p (diag p s) := by
  simp [tick, tickState, h]

theorem tick_of_not_disconnected (h : (s.regs p).ps ≠ .disconnected) :
    tick p s = debounce p (tickState p (diag p s)) := by simp [tick, h]

/-! ### In every environment -/

/-- Port `p` is as in `s`, or attached by one pair of levels in the chip's range, of which one is at attach level. -/
def KeptOrAttached (p : Port) (s t : State) : Prop :=
  OthersKept p s t ∧ (t.regs p = s.regs p ∧ t.out p = s.out p ∨
    ∃ cc : Nat × Nat, anyAttach s.cfg cc = true ∧ cc.1 ≤ s.cfg.ccMax ∧ cc.2 ≤ s.cfg.ccMax ∧
      t.regs p = attachedRegs cc (s.regs p) ∧ t.out p = attachedOut cc (s.out p))

theorem keptOrAttached_of_mainKept (h : MainKept s t) : KeptOrAttached p s t :=
  ⟨othersKept_of_mainKept h, .inl ⟨h.regs p, h.out p⟩⟩

theorem keptOrAttached_trans {u : State} (h : MainKept s t) (h' : KeptOrAttached p t u) : KeptOrAttached p s u := by
  obtain ⟨ho, hp⟩ := h'
  rw [h.cfg, h.regs, h.out] at hp
  exact ⟨othersKept_trans (othersKept_of_mainKept h) ho, hp⟩

theorem keptOrAttached_attach (h : anyAttach s.cfg (ccLevels s p) = true) :
    KeptOrAttached p s (attach p (ccLevels s p) s) := by
  obtain ⟨h1, h2⟩ := ccLevels_le s p
  exact ⟨othersKept_attach (othersKept_refl p s) _, .inr ⟨_, h, h1, h2, by simp, by simp⟩⟩

theorem keptOrAttached_onAttach (p : Port) (s : State) : KeptOrAttached p s (onAttach p s) := by
  have hk := mainKept_attachPoint p s
  cases h : anyAttach (attachPoint p s).cfg (ccLevels (attachPoint p s) p) with
  | true => rw [onAttach_of_anyAttach h]; exact keptOrAttached_trans hk (keptOrAttached_attach h)
  | false => rw [onAttach_of_not_anyAttach h]; exact keptOrAttached_of_mainKept hk

theorem keptOrAttached_pollDisconnected (p : Port) (s : State) : KeptOrAttached p s (pollDisconnected p s) := by
  have hk := mainKept_attachPoint p s
  cases h : anyAttach (attachPoint p s).cfg (ccLevels (attachPoint p s) p) with
  | true => rw [pollDisconnected_of_anyAttach h]; exact keptOrAttached_trans hk (keptOrAttached_onAttach p _)
  | false =>
    rw [pollDisconnected_of_not_anyAttach h]
    exact keptOrAttached_of_mainKept (mainKept_trans hk (mainKept_delay p _ _))

theorem keptOrAttached_tick (h : (s.regs p).ps = .disconnected) : KeptOrAttached p s (tick p s) := by
  rw [tick_of_disconnected h]
  exact keptOrAttached_trans (mainKept_diag p s) (keptOrAttached_pollDisconnected p _)

/-- Settles O19: the pair is the one of the reading that the attach acts on. -/
theorem attachInAnyEnvironment : Obligations.AttachInAnyEnvironment := by
  intro s p i hl ht hi
  have r := sends_refl (· = p) s
  obtain rfl | rfl | ⟨rfl, hd⟩ := hi
  · exact ⟨onAttach p s, onPort_completes hl ht (sends_onAttach rfl r), keptOrAttached_onAttach p s⟩
  · exact ⟨pollDisconnected p s, onPort_completes hl ht (sends_pollDisconnected rfl r),
      keptOrAttached_pollDisconnected p s⟩
  · exact ⟨tick p s, onPort_completes hl ht (sends_tick rfl r), keptOrAttached_tick hd⟩

/-! ### In a quiet environment -/

/-- The boundary of port `p` after a PD reset of its chip (R285). -/
def chipResetState (p : Port) (s : State) : State :=
  s.updEnv p fun e => { e with rx := e.afterResetRx, tcpc := putStatus s.cfg e.tcpc e.afterResetStatus }

theorem chipReset_chipResetState (p : Port) (s : State) : ChipReset p s (chipResetState p s) where
  other q e := by simp [chipResetState, e]
  own := by simp [chipResetState]
  registers a ha hb hc := by simp [chipResetState, readReg_putStatus_other _ _ _ ha hb hc]
  calls := by simp [chipResetState]
  sched := by simp [chipResetState]
  resetReq := by simp [chipResetState]
  wake := by simp [chipResetState]

theorem quietRun_tcpcReset (h : QuietRun s t es) (p : Port) :
    QuietRun (chipResetState p s) (tcpcReset p t) (es ++ [.tcpcReset p]) := by
  have hn := notes_tcpcReset h.quiet p
  rw [quietRun_cfg h] at hn
  exact ⟨quiet_tcpcReset h.quiet p, notes_trans (notes_updEnv h.notes p _) hn⟩

theorem quietRun_outWrite_if (h : QuietRun v t es) (c : Bool) (p : Port) (w : OutWrite) :
    QuietRun (v.updOut p fun o => if c then writeOutput w o else o) (if c then outWrite p w t else t)
      (es ++ if c then [.out p w] else []) := by
  cases c with
  | true => exact quietRun_outWrite h p w
  | false => simpa [updOut_id] using h

/-- The state an attach with the pair `cc` leads to, but for the trace (R123). -/
def attachedState (p : Port) (cc : Nat × Nat) (s : State) : State :=
  ((chipResetState p s).updOut p (attachedOut cc)).updRegs p (attachedRegs cc)

theorem attachedOut_eq_writes (cc : Nat × Nat) : attachedOut cc = fun o =>
    writeOutput (.vbus .on) (writeOutput (.rxEn true) ((fun o => if wantVconn cc then writeOutput (.vconn true) o else o)
      (writeOutput (.chipPol (chipPolOf (selectPolarity cc))) (writeOutput (.vconn false)
        (writeOutput (.hdrRole .source) o))))) := by
  funext o
  cases hv : wantVconn cc <;> simp [attachedOut, writeOutput, hv]

theorem quietRun_attach (h : QuietRun s t es) (p : Port) (cc : Nat × Nat) :
    ∃ m, TxMessage (attachedState p cc s) p s.cfg.probeCode s.cfg.probeObjs m ∧
      QuietRun (attachedState p cc s) (attach p cc t) (es ++ (attachEvents p cc ++ [.tx p .probe m])) := by
  have h1 := quietRun_outWrite (quietRun_outWrite (quietRun_tcpcReset h p) p (.hdrRole .source)) p (.vconn false)
  have h2 := quietRun_outWrite (quietRun_updRegs h1 p (fun r => { r with pol := selectPolarity cc }) (fun _ => rfl)
    fun _ => rfl) p (.chipPol (chipPolOf (selectPolarity cc)))
  have h3 := quietRun_outWrite (quietRun_outWrite (quietRun_outWrite_if h2 (wantVconn cc) p (.vconn true)) p (.rxEn true)) p
    (.vbus .on)
  have h4 := quietRun_updRegs h3 p (fun r => { r with ps := .dfpVbusOn }) (fun _ => rfl) fun _ => rfl
  simp only [updOut_updRegs, updOut_updOut, updRegs_updRegs, List.append_assoc] at h4
  have h5 := quietRun_congr h4 (w := attachedState p cc s) (by rw [attachedState, attachedOut_eq_writes]; rfl)
  obtain ⟨m, hm, h6⟩ := quietRun_txProbe h5 p
  exact ⟨m, by simpa [attachedState, chipResetState] using hm, by simpa [attach, attachEvents] using h6⟩

theorem chipReset_keep (h : ChipReset p s v) (hk : BoundaryKept v t) : ChipReset p s t where
  other q e := (hk.env q).trans (h.other q e)
  own := by rw [hk.env]; exact h.own
  registers a ha hb hc := (hk.registers p a).trans (h.registers a ha hb hc)
  calls := hk.calls.trans h.calls
  sched := hk.sched.trans h.sched
  resetReq := hk.resetReq.trans h.resetReq
  wake := hk.wake.trans h.wake

/-- What the writes of an attach and its probe come to (R123, R285). -/
theorem attached_of_quietRun {cc : Nat × Nat} {m : Msg}
    (hm : TxMessage (attachedState p cc s) p s.cfg.probeCode s.cfg.probeObjs m)
    (h : QuietRun (attachedState p cc s) t (attachEvents p cc ++ [.tx p .probe m])) : Attached p cc s t := by
  have hw : Rewritten p (chipResetState p s) (attachedState p cc s) :=
    rewritten_updRegs (rewritten_updOut (rewritten_refl p _) _) _
  obtain ⟨ho, hb, hr, hout, ha⟩ := quietRun_frame h hw
  have hc : MainKept s (chipResetState p s) := by constructor <;> simp [chipResetState]
  obtain ⟨htype, hobj, hrev, hroles⟩ := hm
  obtain ⟨hprole, hdrole⟩ := hroles (by simp [attachedState, attachedOut])
  exact ⟨othersKept_trans (othersKept_of_mainKept hc) ho, by simp [hr, attachedState, hc.regs],
    by simp [hout, attachedState, hc.out], fun q => by simp [hb.shared q, chipResetState],
    chipReset_keep (chipReset_chipResetState p s) hb, m, by simpa [attachedState, hc.cfg] using htype, hobj,
    by simpa [attachedState, hc.cfg] using hrev, hprole, hdrole, by simpa [Adds, chipResetState] using ha⟩

theorem quietRun_attachPoint (h : QuietRun v t es) (p : Port) : QuietRun v (attachPoint p t) es :=
  quietRun_point (quietRun_diag h p)

/-- In a quiet environment every reading of the levels is that of the start. -/
theorem anyAttach_attachPoint (h : QuietRun v t es) (p : Port) :
    anyAttach (attachPoint p t).cfg (ccLevels (attachPoint p t) p) = anyAttach v.cfg (ccLevels v p) := by
  have hp := quietRun_attachPoint h p
  rw [quietRun_cfg hp, quietRun_ccLevels hp]

theorem attached_onAttach (h : QuietRun s t []) (ha : anyAttach s.cfg (ccLevels s p) = true) :
    Attached p (ccLevels s p) s (onAttach p t) := by
  have hp := quietRun_attachPoint h p
  rw [onAttach_of_anyAttach ((anyAttach_attachPoint h p).trans ha), quietRun_ccLevels hp]
  obtain ⟨m, hm, hr⟩ := quietRun_attach hp p (ccLevels s p)
  exact attached_of_quietRun hm hr

theorem attached_pollDisconnected (h : QuietRun s t []) (ha : anyAttach s.cfg (ccLevels s p) = true) :
    Attached p (ccLevels s p) s (pollDisconnected p t) := by
  rw [pollDisconnected_of_anyAttach ((anyAttach_attachPoint h p).trans ha)]
  exact attached_onAttach (quietRun_attachPoint h p) ha

theorem quietRun_onAttach_below (h : QuietRun v t es) (ha : anyAttach v.cfg (ccLevels v p) = false) :
    QuietRun v (onAttach p t) es := by
  rw [onAttach_of_not_anyAttach ((anyAttach_attachPoint h p).trans ha)]
  exact quietRun_attachPoint h p

theorem quietRun_pollDisconnected_below (h : QuietRun v t es) (ha : anyAttach v.cfg (ccLevels v p) = false) :
    QuietRun v (pollDisconnected p t) (es ++ [.delay p (.pollSleep 200)]) := by
  rw [pollDisconnected_of_not_anyAttach ((anyAttach_attachPoint h p).trans ha)]
  exact quietRun_delay (quietRun_attachPoint h p) p _

/-- Settles O18: in a quiet environment every reading is that of the start, and the tick is a poll. -/
theorem attachAtLevelElseNothing : Obligations.AttachAtLevelElseNothing := by
  intro s p i hl hq hi
  have r := quietRun_refl hq
  have hs := sends_refl (· = p) s
  have hd := quietRun_diag r p
  obtain rfl | rfl | ⟨rfl, hps⟩ := hi
  · exact ⟨onAttach p s, onPort_completes hl (hq.2 p) (sends_onAttach rfl hs), attached_onAttach r,
      fun ha => by rw [if_pos rfl]; exact quietRun_kept (quietRun_onAttach_below r ha)⟩
  · exact ⟨pollDisconnected p s, onPort_completes hl (hq.2 p) (sends_pollDisconnected rfl hs),
      attached_pollDisconnected r, fun ha => quietRun_kept (quietRun_pollDisconnected_below r ha)⟩
  · refine ⟨tick p s, onPort_completes hl (hq.2 p) (sends_tick rfl hs), ?_⟩
    rw [tick_of_disconnected hps]
    exact ⟨attached_pollDisconnected hd, fun ha => quietRun_kept (quietRun_pollDisconnected_below hd ha)⟩

end

end Sys2Proof.Machine

/-! ## Debounce and tick (R126, R127) -/

namespace Sys2Proof.Machine

section
variable {p : Port} {s t v : State} {es : List Event}

theorem debounce_of_anyAttach (h : bothBelow (attachPoint p s).cfg (ccLevels (attachPoint p s) p) = false) :
    debounce p s = (attachPoint p s).updRegs p fun r => { r with deb := 0 } := if_neg (Bool.not_eq_true _ ▸ h)

theorem debounce_of_detach (h : bothBelow (attachPoint p s).cfg (ccLevels (attachPoint p s) p) = true)
    (hd : Config.debounceLimit ≤ (s.regs p).deb) :
    debounce p s = disconnect p ((attachPoint p s).updRegs p fun r => { r with deb := r.deb + 1 }) := by
  refine (if_pos h).trans (if_pos ?_)
  simpa using Nat.lt_succ_of_le hd

theorem debounce_of_low (h : bothBelow (attachPoint p s).cfg (ccLevels (attachPoint p s) p) = true)
    (hd : (s.regs p).deb < Config.debounceLimit) :
    debounce p s = (attachPoint p s).updRegs p fun r => { r with deb := r.deb + 1 } := by
  refine (if_pos h).trans (if_neg ?_)
  simpa using hd

theorem debouncedRegs_of_detach {r : PortRegs} (h : Config.debounceLimit ≤ r.deb) :
    debouncedRegs true r = disconnectedRegs r := (if_pos rfl).trans (if_pos (Nat.lt_succ_of_le h))

theorem debouncedRegs_of_low {r : PortRegs} (h : r.deb < Config.debounceLimit) :
    debouncedRegs true r = { r with deb := r.deb + 1 } := (if_pos rfl).trans (if_neg (not_lt.mpr h))

theorem debouncedRegs_false (r : PortRegs) : debouncedRegs false r = { r with deb := 0 } := rfl

/-- Only a low reading past the limit detaches (R127). -/
theorem debounce_detaches {low : Bool} {r : PortRegs} (h : low = true ∧ r.deb + 1 > Config.debounceLimit) (o : Outputs)
    (p : Port) : debouncedOut low r o = disconnectedOut o ∧ debounceEvents p low r = disconnectEvents p :=
  ⟨if_pos h, if_pos h⟩

theorem debounce_stays {low : Bool} {r : PortRegs} (h : ¬ (low = true ∧ r.deb + 1 > Config.debounceLimit)) (o : Outputs)
    (p : Port) : debouncedOut low r o = o ∧ debounceEvents p low r = [] :=
  ⟨if_neg h, if_neg h⟩

/-- A debounce check that does not detach writes the record only. -/
theorem quietRun_debounce_stays {low : Bool} (h : QuietRun (v.updRegs p (debouncedRegs low)) t es)
    (hn : ¬ (low = true ∧ (v.regs p).deb + 1 > Config.debounceLimit)) :
    QuietRun ((v.updOut p (debouncedOut low (v.regs p))).updRegs p (debouncedRegs low)) t
      (es ++ debounceEvents p low (v.regs p)) := by
  obtain ⟨ho, he⟩ := debounce_stays hn (v.out p) p
  rw [updOut_congr (g := fun o => o) ho, updOut_id, he, List.append_nil]
  exact h

/-- A debounce check: the record, the outputs and the events by the reading and the count before it (R127). -/
theorem quietRun_debounce (h : QuietRun v t es) (p : Port) {low : Bool} (hlow : bothBelow v.cfg (ccLevels v p) = low) :
    QuietRun ((v.updOut p (debouncedOut low (v.regs p))).updRegs p (debouncedRegs low)) (debounce p t)
      (es ++ debounceEvents p low (v.regs p)) := by
  have hp := quietRun_attachPoint h p
  have hb : bothBelow (attachPoint p t).cfg (ccLevels (attachPoint p t) p) = low := by
    rw [quietRun_cfg hp, quietRun_ccLevels hp, hlow]
  cases low with
  | false =>
    rw [debounce_of_anyAttach hb]
    exact quietRun_debounce_stays (quietRun_updRegs hp p (debouncedRegs false) (fun _ => rfl) fun _ => rfl) (by simp)
  | true =>
    by_cases hd : Config.debounceLimit ≤ (v.regs p).deb
    · have hn := quietRun_updRegs hp p (fun r => { r with deb := r.deb + 1 }) (fun _ => rfl) fun _ => rfl
      have hr := quietRun_disconnect hn p
      obtain ⟨ho, he⟩ := debounce_detaches ⟨rfl, Nat.lt_succ_of_le hd⟩ (v.out p) p
      rw [debounce_of_detach hb (by rwa [quietRun_regs h]), he, updOut_congr ho]
      rw [updOut_updRegs, updRegs_updRegs] at hr
      exact quietRun_congr hr (updRegs_congr (by simp [debouncedRegs_of_detach hd, disconnectedRegs]))
    · have hd' := not_le.mp hd
      have hn := quietRun_updRegs hp p (fun r => { r with deb := r.deb + 1 }) (fun _ => rfl) fun _ => rfl
      rw [debounce_of_low hb (by rwa [quietRun_regs h])]
      exact quietRun_debounce_stays (quietRun_congr hn (updRegs_congr (debouncedRegs_of_low hd')))
        fun e => hd (Nat.le_of_lt_succ e.2)

/-- Settles O23: `DEBOUNCE_LIMIT` is 5. -/
theorem debounceCountsToDetach : Obligations.DebounceCountsToDetach := by
  intro s p hl hq
  have hx := onPort_completes hl (hq.2 p) (sends_debounce rfl (sends_refl _ s))
  obtain ⟨ho, hb, hr, hout, ha⟩ := quietRun_frame (quietRun_debounce (quietRun_refl hq) p rfl)
    (rewritten_updRegs (rewritten_updOut (rewritten_refl p s) _) _)
  simp only [regs_updRegs, regs_updOut, out_updRegs, out_updOut, if_pos] at hr hout
  refine ⟨debounce p s, hx, ho, hb, fun hlow hd => ?_, fun hlow hd => ?_, fun hlow => ?_⟩ <;>
    rw [hlow] at hr hout ha
  · obtain ⟨h1, h2⟩ := debounce_stays (low := true) (fun e => absurd e.2 (not_lt.mpr hd)) (s.out p) p
    exact ⟨hr.trans (debouncedRegs_of_low hd), hout.trans h1, by rwa [h2] at ha⟩
  · obtain ⟨h1, h2⟩ := debounce_detaches ⟨rfl, Nat.lt_succ_of_le hd⟩ (s.out p) p
    exact ⟨hr.trans (debouncedRegs_of_detach hd), hout.trans h1, by rwa [h2] at ha⟩
  · obtain ⟨h1, h2⟩ := debounce_stays (low := false) (by simp) (s.out p) p
    exact ⟨hr.trans (debouncedRegs_false _), hout.trans h1, by rwa [h2] at ha⟩

/-! ### The tick -/

/-- What the state's own step of a tick transmits when it neither polls nor attaches: the retransmission and the probe of a
retry timer past its threshold, else nothing (R124, R125, R126). -/
def TickSends (s : State) (p : Port) (es : List Event) : Prop :=
  if (s.regs p).ps = .dfpVbusOn ∧ (s.regs p).sct + 1 > Config.srcCapRetry then
    ∃ m m', TxMessage s p .sourceCap s.cfg.srcCapObjs m ∧ TxMessage s p s.cfg.probeCode s.cfg.probeObjs m' ∧
      es = [.tx p .sourceCap m, .tx p .probe m']
  else es = []

theorem tickedRegs_deb (r : PortRegs) : (tickedRegs r).deb = r.deb := by
  unfold tickedRegs
  split <;> rfl

theorem tickSends_of_retry {m m' : Msg} (h : (s.regs p).ps = .dfpVbusOn) (hc : Config.srcCapRetry ≤ (s.regs p).sct)
    (hm : TxMessage s p .sourceCap s.cfg.srcCapObjs m) (hm' : TxMessage s p s.cfg.probeCode s.cfg.probeObjs m') :
    TickSends s p [.tx p .sourceCap m, .tx p .probe m'] := by
  rw [TickSends, if_pos ⟨h, Nat.lt_succ_of_le hc⟩]
  exact ⟨m, m', hm, hm', rfl⟩

theorem tickSends_nil (h : ¬ ((s.regs p).ps = .dfpVbusOn ∧ (s.regs p).sct + 1 > Config.srcCapRetry)) :
    TickSends s p [] := by
  rw [TickSends, if_neg h]

/-- The state's own step of a tick that does not poll (R124, R125, R126). -/
theorem quietRun_tickState (h : QuietRun v t []) (hd : (v.regs p).ps ≠ .disconnected) :
    ∃ es, TickSends v p es ∧ QuietRun (v.updRegs p tickedRegs) (tickState p t) es := by
  unfold tickState
  rw [quietRun_regs h]
  cases e : (v.regs p).ps with
  | disconnected => exact absurd e hd
  | dfpVbusOn =>
    by_cases hc : Config.srcCapRetry ≤ (v.regs p).sct
    · obtain ⟨m, m', hm, hm', hr⟩ := quietRun_tickVbusOn_retransmits h hc
      exact ⟨_, tickSends_of_retry e hc hm hm',
        quietRun_congr hr (updRegs_congr (by simp [tickedRegs, e, Nat.lt_succ_of_le hc]))⟩
    · have hc' := not_le.mp hc
      exact ⟨[], tickSends_nil fun x => hc (Nat.le_of_lt_succ x.2),
        quietRun_congr (quietRun_tickVbusOn_counts h hc') (updRegs_congr (by simp [tickedRegs, e, hc']))⟩
  | ready =>
    exact ⟨[], tickSends_nil (by simp [e]),
      quietRun_congr (quietRun_tickReady h p) (updRegs_congr (by simp [tickedRegs, e]))⟩
  | connected | dfpConnected | dfpAccept | idle =>
    have hv : v.updRegs p tickedRegs = v := (updRegs_congr (by simp [tickedRegs, e])).trans (updRegs_id v p)
    exact ⟨[], tickSends_nil (by simp [e]), quietRun_congr h hv⟩

/-- Settles O17: the state's own step and the debounce check, one quiet run after the other. -/
theorem tickStepsThenDebounces : Obligations.TickStepsThenDebounces := by
  intro s p hl hq hps
  obtain ⟨es, hes, h1⟩ := quietRun_tickState (quietRun_diag (quietRun_refl hq) p) hps
  have h2 := quietRun_debounce h1 p (low := bothBelow s.cfg (ccLevels s p)) (by simp [ccLevels])
  rw [← tick_of_not_disconnected hps] at h2
  obtain ⟨ho, hb, hr, hout, ha⟩ := quietRun_frame h2
    (rewritten_updRegs (rewritten_updOut (rewritten_updRegs (rewritten_refl p s) _) _) _)
  simp only [regs_updRegs, regs_updOut, out_updRegs, out_updOut, if_pos] at hr hout ha
  refine ⟨tick p s, onPort_completes hl (hq.2 p) (sends_tick rfl (sends_refl _ s)), ho, hb, hr, ?_, fun hc => ?_,
    fun hc => ?_⟩
  · simpa [debouncedOut, tickedRegs_deb] using hout
  · rw [TickSends, if_pos hc] at hes
    obtain ⟨m, m', hm, hm', rfl⟩ := hes
    exact ⟨m, m', hm, hm', by simpa [debounceEvents, tickedRegs_deb] using ha⟩
  · rw [TickSends, if_neg hc] at hes
    subst hes
    simpa [debounceEvents, tickedRegs_deb] using ha

end

end Sys2Proof.Machine

/-! ## `SETUP` in a quiet environment (R121, R52) -/

namespace Sys2Proof.Machine

section
variable {p : Port} {s t u v : State} {es : List Event}

/-! ### Writes of a port before its `SETUP` has returned, which make no handler ready (R281) -/

theorem quietRun_updRegs_beforeSetUp (h : QuietRun v t es) (hn : (v.regs p).setUp = false) (f : PortRegs → PortRegs)
    (hu : ∀ r, (f r).setUp = r.setUp) : QuietRun (v.updRegs p f) (t.updRegs p f) es :=
  ⟨quiet_updRegs_beforeSetUp h.quiet (by rwa [quietRun_regs h]) f hu, notes_updRegs h.notes p f⟩

theorem quietRun_updShared_beforeSetUp (h : QuietRun v t es) (hn : (v.regs p).setUp = false) (f : Shared → Shared) :
    QuietRun (v.updShared p f) (t.updShared p f) es :=
  ⟨quiet_updShared_beforeSetUp h.quiet (by rwa [quietRun_regs h]) f, notes_updShared h.notes p f⟩

theorem updShared_updRegs (s : State) (p : Port) (f : PortRegs → PortRegs) (g : Shared → Shared) :
    (s.updRegs p f).updShared p g = (s.updShared p g).updRegs p f := by cases p <;> rfl

theorem updOut_updShared (s : State) (p : Port) (f : Shared → Shared) (g : Outputs → Outputs) :
    (s.updShared p f).updOut p g = (s.updOut p g).updShared p f := by cases p <;> rfl

theorem chipResetState_updRegs (s : State) (p : Port) (f : PortRegs → PortRegs) :
    chipResetState p (s.updRegs p f) = (chipResetState p s).updRegs p f := by cases p <;> rfl

@[simp] theorem chipResetState_cfg (s : State) (p : Port) : (chipResetState p s).cfg = s.cfg := by simp [chipResetState]

theorem updShared_updShared (s : State) (p : Port) (f g : Shared → Shared) :
    (s.updShared p f).updShared p g = s.updShared p fun x => g (f x) := by cases p <;> rfl

/-! ### The side effects and the validations -/

/-- The two side effects of `SETUP`, up to the bus-line check (R121, D10). -/
def setupBegin (p : Port) (s : State) : State :=
  let s := diag p s
  point (vbusOff p (outWrite p (.indicator s.cfg.indicatorLevel) s))

/-- The outputs after the two side effects of `SETUP`. -/
def begunOut (c : Params) (o : Outputs) : Outputs := { o with indicator := c.indicatorLevel, vbus := .released }

theorem quietRun_setupBegin (h : Quiet s) (p : Port) :
    QuietRun (s.updOut p (begunOut s.cfg)) (setupBegin p s) (setupSideEffects s.cfg p) := by
  have h1 := quietRun_outWrite (quietRun_diag (quietRun_refl h) p) p (.indicator (diag p s).cfg.indicatorLevel)
  have h2 := quietRun_point (quietRun_vbusOff h1 p)
  rw [updOut_updOut] at h2
  simp only [diag_cfg] at h2
  simp only [setupBegin, diag_cfg]
  exact h2

theorem setup_of_busLow (h : ((setupBegin p s).env p).busHeldLow = true) :
    setup p s = (markAbsent p .busLow (setupBegin p s)).updRegs p fun r => { r with setUp := true } :=
  congrArg (fun x => State.updRegs x p fun r => { r with setUp := true }) (if_pos h)

theorem setup_of_busFree (h : ((setupBegin p s).env p).busHeldLow = false) :
    setup p s = (setupIdentify p (setupBegin p s)).updRegs p fun r => { r with setUp := true } :=
  congrArg (fun x => State.updRegs x p fun r => { r with setUp := true }) (if_neg (Bool.not_eq_true _ ▸ h))

/-- In a quiet environment the validations decide on the bus lines and the identity of the start (R121). -/
theorem setup_by_validation (h : Quiet s) (p : Port) :
    (passesSetup s p → setup p s = (setupPresent p (setupBegin p s)).updRegs p fun r => { r with setUp := true }) ∧
    (¬ passesSetup s p →
      setup p s = (markAbsent p (absenceCause s p) (setupBegin p s)).updRegs p fun r => { r with setUp := true }) := by
  have hb := quietRun_setupBegin h p
  have henv : (setupBegin p s).env p = s.env p := by simp [quietRun_env hb]
  have hcfg : (setupBegin p s).cfg = s.cfg := by simp [quietRun_cfg hb]
  have hi : setupIdentify p (setupBegin p s) =
      if idValid s.cfg (readReg (s.env p).tcpc s.cfg.idRegAddr) then setupPresent p (setupBegin p s)
      else markAbsent p .badId (setupBegin p s) := by
    simp only [setupIdentify, point_of_quiet hb.quiet, henv, hcfg]
  unfold passesSetup absenceCause
  cases hl : (s.env p).busHeldLow with
  | true => exact ⟨fun hp => by simp at hp, fun _ => setup_of_busLow (by rw [henv, hl])⟩
  | false =>
    rw [setup_of_busFree (by rw [henv, hl]), hi]
    exact ⟨fun hp => by rw [if_pos hp.2], fun hp => by rw [if_neg fun hid => hp ⟨rfl, hid⟩]; rfl⟩

theorem execSetup_completes (h : (s.regs p).setUp = false) (ht : HostTakes p s) :
    exec (.setup p) s = .next (setup p s) := by
  have hst := hostTakes_stalled ((sends_setup (D := (· = p)) rfl (sends_refl _ s)).duty (fun _ e => e ▸ ht) p ht)
  simp [exec, execSetup, h, stallOutcome_of_none hst]

/-! ### A port that fails a validation -/

/-- What a failed validation records and logs (R241). -/
theorem quietRun_markAbsent (h : QuietRun v t es) (hn : (v.regs p).setUp = false) (c : AbsenceCause) :
    QuietRun (clearAbsent p v) (markAbsent p c t) (es ++ .raised (.absence p c) ::
      (if (v.env p).connected then [.log p (.absent c)] else [])) := by
  have h1 := quietRun_updRegs_beforeSetUp h hn (fun r => { r with present := false }) fun _ => rfl
  have h2 := quietRun_updShared_beforeSetUp (p := p) h1 (by simpa using hn) fun x =>
    { x with irqEn := false, pending := false }
  have h3 := quietRun_note h2 (notes_raise h2.quiet (.absence p c))
  have h4 := quietRun_diag h3 p
  simp only [env_updShared, env_updRegs, quietRun_env h] at h4
  exact h4

theorem boundaryKeptBut_keep (h : BoundaryKeptBut p s v) (hk : BoundaryKept v t) : BoundaryKeptBut p s t where
  shared q e := (hk.shared q).trans (h.shared q e)
  env q := (hk.env q).trans (h.env q)
  registers q a := (hk.registers q a).trans (h.registers q a)
  calls := hk.calls.trans h.calls
  sched := hk.sched.trans h.sched
  resetReq := hk.resetReq.trans h.resetReq
  wake := hk.wake.trans h.wake

/-- The state that `SETUP` of an absent port leads to from `s`, but for the trace (R52). -/
def absentState (p : Port) (s : State) : State :=
  (clearAbsent p (s.updOut p (begunOut s.cfg))).updRegs p fun r => { r with setUp := true }

theorem othersKept_absentState (p : Port) (s : State) : OthersKept p s (absentState p s) := by
  constructor <;> simp +contextual [absentState, clearAbsent]

theorem boundaryKeptBut_absentState (p : Port) (s : State) : BoundaryKeptBut p s (absentState p s) := by
  constructor <;> simp +contextual [absentState, clearAbsent]

/-- Settles O12: the run up to the failed validation, then the record of the absence. -/
theorem setupOfAbsentPort : Obligations.SetupOfAbsentPort := by
  intro s p hq hn hv
  refine ⟨setup p s, execSetup_completes hn (hq.2 p), ?_⟩
  rw [(setup_by_validation hq p).2 hv]
  have hr := quietRun_markAbsent (p := p) (quietRun_setupBegin hq p) (by simpa using hn) (absenceCause s p)
  have hs : Notes (absentState p s) _ _ := notes_updRegs hr.notes p fun r => { r with setUp := true }
  have hk := notes_mainKept hs
  have hb := notes_boundaryKept hs
  exact ⟨othersKept_keep (othersKept_absentState p s) hk, by simp [hk.regs, absentState, clearAbsent],
    by simp [hk.out, absentState, clearAbsent, begunOut], by simp [hb.shared, absentState, clearAbsent],
    boundaryKeptBut_keep (boundaryKeptBut_absentState p s) hb,
    by simpa [Adds, absentState, clearAbsent] using notes_adds hs⟩

/-! ### A port that passes both validations -/

/-- The state that `SETUP` of a present port leads to from `v`, but for the trace (R52, R285). -/
def presentState (p : Port) (v : State) : State :=
  (((chipResetState p v).updOut p fun o => { setUpOut v.cfg with vbus := o.vbus, indicator := o.indicator }).updShared p
    fun _ => ⟨false, true, emptyRing (ringSlots v.cfg)⟩).updRegs p fun r => { setUpRegs v.cfg with setUp := r.setUp }

/-- What `SETUP` of a present port emits after its two side effects (R121). -/
def presentEvents (p : Port) : List Event :=
  [.tcpcReset p, .out p (.rxEn false), .out p (.ccRole .srcSeek), .out p (.laneSwap false), .out p (.srcSel .usbPins),
    .out p (.vconn false), .out p (.chipPol .unset), .out p (.hdrRole .unset), .out p (.uartBreak false),
    .out p (.attachIrqArmed true)]

theorem setupEvents_eq (c : Params) (p : Port) : setupEvents c p = setupSideEffects c p ++ presentEvents p := rfl

theorem quietRun_setupConnect (h : QuietRun v t es) (hn : (v.regs p).setUp = false) :
    QuietRun (((chipResetState p v).updOut p fun o =>
        { o with rxEn := false, ccRole := .srcSeek, laneSwap := false, srcSel := .usbPins }).updRegs p
        fun r => { r with present := true })
      (setupConnect p t) (es ++ [.tcpcReset p, .out p (.rxEn false), .out p (.ccRole .srcSeek), .out p (.laneSwap false),
        .out p (.srcSel .usbPins)]) := by
  have h1 := quietRun_updRegs_beforeSetUp h hn (fun r => { r with present := true }) fun _ => rfl
  have h2 := quietRun_outWrite (quietRun_outWrite (quietRun_outWrite (quietRun_outWrite (quietRun_tcpcReset h1 p) p
    (.rxEn false)) p (.ccRole .srcSeek)) p (.laneSwap false)) p (.srcSel .usbPins)
  simp only [chipResetState_updRegs, updOut_updRegs, updOut_updOut, List.append_assoc] at h2
  exact h2

theorem quietRun_setupFields (h : QuietRun v t es) (hn : (v.regs p).setUp = false) :
    QuietRun ((v.updShared p fun x => { x with pending := false, ring := emptyRing (ringSlots v.cfg) }).updRegs p fun r =>
        { r with pol := .cc1, route := .primaryUsb, deb := 0, sct := 0, esc := false, verbose := v.cfg.verboseReset })
      (setupFields p t) es := by
  have h1 := quietRun_updRegs_beforeSetUp h hn (fun r => { r with
    pol := .cc1, route := .primaryUsb, deb := 0, sct := 0, esc := false, verbose := v.cfg.verboseReset }) fun _ => rfl
  have h2 := quietRun_updShared_beforeSetUp (p := p) h1 (by simpa using hn) fun x =>
    { x with pending := false, ring := emptyRing (ringSlots v.cfg) }
  rw [updShared_updRegs] at h2
  simpa [setupFields, quietRun_cfg h] using h2

theorem quietRun_setupOutputs (h : QuietRun v t es) (p : Port) :
    QuietRun (v.updOut p fun o => { o with
        vconn := false, chipPol := .unset, hdrRole := .unset, uartBreak := false, attachIrqArmed := true })
      (setupOutputs p t) (es ++ [.out p (.vconn false), .out p (.chipPol .unset), .out p (.hdrRole .unset),
        .out p (.uartBreak false), .out p (.attachIrqArmed true)]) := by
  have h1 := quietRun_outWrite (quietRun_outWrite (quietRun_outWrite (quietRun_outWrite (quietRun_outWrite h p
    (.vconn false)) p (.chipPol .unset)) p (.hdrRole .unset)) p (.uartBreak false)) p (.attachIrqArmed true)
  simp only [List.append_assoc, updOut_updOut] at h1
  exact quietRun_diag h1 p

theorem notes_setupPresent (h : QuietRun v t es) (hn : (v.regs p).setUp = false) :
    Notes (presentState p v) (setupPresent p t) (es ++ presentEvents p) := by
  have h1 := quietRun_setupConnect h hn
  have h2 := quietRun_setupOutputs (quietRun_setupFields (p := p) h1 (by simpa [chipResetState] using hn)) p
  have h3 := notes_updRegs (notes_updShared h2.notes p fun x => { x with irqEn := true }) p
    fun r => { r with ps := .disconnected }
  simp only [updRegs_cfg, updOut_cfg, chipResetState_cfg, updOut_updRegs, updOut_updShared, updShared_updRegs,
    updShared_updShared, updOut_updOut, updRegs_updRegs, List.append_assoc] at h3
  exact h3

/-- A present port's `SETUP` leaves, of both ports' boundary, what a PD reset of its chip does (R285). -/
theorem chipReset_presentState (p : Port) (s : State) (f : PortRegs → PortRegs) (g : Outputs → Outputs) :
    ChipReset p s ((presentState p (s.updOut p g)).updRegs p f) where
  other q e := by simp [presentState, chipResetState, e]
  own := by simp [presentState, chipResetState]
  registers a ha hb hc := by simp [presentState, chipResetState, readReg_putStatus_other _ _ _ ha hb hc]
  calls := by simp [presentState, chipResetState]
  sched := by simp [presentState, chipResetState]
  resetReq := by simp [presentState, chipResetState]
  wake := by simp [presentState, chipResetState]

theorem othersKept_presentState (p : Port) (s : State) (f : PortRegs → PortRegs) (g : Outputs → Outputs) :
    OthersKept p s ((presentState p (s.updOut p g)).updRegs p f) := by
  constructor <;> simp +contextual [presentState, chipResetState]

/-- Settles O11: the last writes need no quiet environment, since no interrupt point follows the arming (R281). -/
theorem setupOfPresentPort : Obligations.SetupOfPresentPort := by
  intro s p hq hn hv
  refine ⟨setup p s, execSetup_completes hn (hq.2 p), ?_⟩
  rw [(setup_by_validation hq p).1 hv]
  have hs := notes_updRegs (notes_setupPresent (quietRun_setupBegin hq p) (by simpa using hn)) p
    fun r => { r with setUp := true }
  have hk := notes_mainKept hs
  have hb := notes_boundaryKept hs
  exact ⟨othersKept_keep (othersKept_presentState p s _ _) hk, by simp [hk.regs, presentState, setUpRegs],
    by simp [hk.out, presentState, chipResetState, setUpOut, begunOut], by simp [hb.shared, presentState],
    fun q e => by simp [hb.shared, presentState, chipResetState, e],
    chipReset_keep (chipReset_presentState p s _ _) (notes_boundaryKept hs),
    by simpa [Adds, presentState, chipResetState, setupEvents_eq] using notes_adds hs⟩

end

end Sys2Proof.Machine

/-! ## The CC levels of a port while nothing is scheduled

Only a move of the environment changes the levels that `MAIN` reads (R63, R229). -/

namespace Sys2Proof.Machine

/-- If nothing is scheduled in `s`, nothing is in `t`, and the levels of port `p` are those of `s`. -/
def LevelsKept (p : Port) (s t : State) : Prop :=
  s.sched = [] → t.sched = [] ∧ (t.env p).cc1 = (s.env p).cc1 ∧ (t.env p).cc2 = (s.env p).cc2

section
variable {p : Port} {s t u : State}

theorem levels_refl (p : Port) (s : State) : LevelsKept p s s := fun h => ⟨h, rfl, rfl⟩

theorem levels_trans (h : LevelsKept p s t) (h' : LevelsKept p t u) : LevelsKept p s u := fun hs => by
  obtain ⟨ht, h1, h2⟩ := h hs
  obtain ⟨hu, h1', h2'⟩ := h' ht
  exact ⟨hu, h1'.trans h1, h2'.trans h2⟩

/-- A continuation that leaves the environment of the port and the schedule as they are. -/
theorem levels_of_eq (h : LevelsKept p s t) (he : u.env p = t.env p) (hs : u.sched = t.sched) : LevelsKept p s u :=
  levels_trans h fun ht => ⟨hs.trans ht, by rw [he], by rw [he]⟩

/-- A continuation that writes, of the environment of port `q`, no level. -/
theorem levels_updEnv (h : LevelsKept p s t) (q : Port) {f : EnvPort → EnvPort} (h1 : ∀ e, (f e).cc1 = e.cc1)
    (h2 : ∀ e, (f e).cc2 = e.cc2) : LevelsKept p s (t.updEnv q f) :=
  levels_trans h fun ht => ⟨by simpa using ht, by rw [env_updEnv]; split_ifs <;> simp [h1],
    by rw [env_updEnv]; split_ifs <;> simp [h2]⟩

theorem levels_point (h : LevelsKept p s t) : LevelsKept p s (point t) :=
  levels_trans h fun ht => by
    have hs := point_sched_nil t ht
    obtain e | e := point_of_sched_nil ht
    · rw [e]; exact ⟨ht, rfl, rfl⟩
    · have henv := (takeIrqs_frame t p).2.1
      rw [e] at hs ⊢
      exact ⟨hs, by rw [henv], by rw [henv]⟩

theorem levels_effect (h : LevelsKept p s t) {f : State → State} (hf : LevelsKept p s (f t)) :
    LevelsKept p s (effect f t) := by
  unfold effect
  split_ifs
  · exact h
  · exact hf

theorem levels_emit (h : LevelsKept p s t) (e : Event) : LevelsKept p s (emit e t) :=
  levels_effect h (levels_of_eq h (by simp) (by simp))

theorem levels_outWrite (h : LevelsKept p s t) (q : Port) (w : OutWrite) : LevelsKept p s (outWrite q w t) :=
  levels_emit (levels_of_eq (levels_point h) (by simp) (by simp)) _

theorem levels_outWritePair (h : LevelsKept p s t) (q : Port) (v w : OutWrite) : LevelsKept p s (outWritePair q v w t) :=
  levels_emit (levels_emit (levels_of_eq (levels_point h) (by simp) (by simp)) _) _

theorem levels_tcpcReset (h : LevelsKept p s t) (q : Port) : LevelsKept p s (tcpcReset q t) :=
  levels_emit (levels_effect (levels_point h) (levels_updEnv (levels_point h) q (fun _ => by rfl) fun _ => by rfl)) _

theorem levels_intStatusReadClear (h : LevelsKept p s t) (q : Port) : LevelsKept p s (intStatusReadClear q t).2 :=
  levels_effect (levels_point h) (levels_updEnv (levels_point h) q (fun _ => rfl) fun _ => rfl)

theorem levels_rxGet (h : LevelsKept p s t) (q : Port) : LevelsKept p s (rxGet q t).2 := by
  unfold rxGet
  split_ifs
  · exact h
  · split
    · exact h
    · exact levels_updEnv h q (fun _ => rfl) fun _ => rfl

theorem levels_hostTryRecv (h : LevelsKept p s t) (q : Port) : LevelsKept p s (hostTryRecv q t).2 := by
  unfold hostTryRecv
  split_ifs
  · exact h
  · split
    · exact h
    · exact levels_updEnv h q (fun _ => rfl) fun _ => rfl

theorem levels_sendBytes (h : LevelsKept p s t) (q : Port) (e : Event) (n : Nat) (ms : List (List EnvMove)) (k : Nat) :
    LevelsKept p s (sendBytes q e n ms k t) := by
  induction ms generalizing k t with
  | nil =>
    unfold sendBytes
    split_ifs <;> exact levels_of_eq h (by simp [stall]) (by simp [stall])
  | cons m ms ih =>
    unfold sendBytes
    split_ifs
    · exact levels_of_eq h (by simp) (by simp)
    · exact ih (levels_point h) _
    · exact levels_of_eq h (by simp) (by simp)
    · exact ih (levels_point h) _

theorem levels_hostSend (h : LevelsKept p s t) (q : Port) (e : Event) : LevelsKept p s (hostSend q e t) := by
  unfold hostSend
  dsimp only
  split_ifs
  · exact levels_point h
  · exact levels_sendBytes (levels_point h) q e _ _ _

theorem levels_logLine (h : LevelsKept p s t) (q : Port) (l : LogBody) : LevelsKept p s (logLine q l t) := by
  unfold logLine
  split_ifs
  · exact h
  · exact levels_hostSend h q _

theorem levels_diagLines (h : LevelsKept p s t) (q : Port) (ts : List (List Byte)) :
    LevelsKept p s (ts.foldl (fun s t => logLine q (.diag t) s) t) := by
  induction ts generalizing t with
  | nil => exact h
  | cons x ts ih => exact ih (levels_logLine h q _)

theorem levels_diag (h : LevelsKept p s t) (q : Port) : LevelsKept p s (diag q t) := by
  unfold diag
  split_ifs
  · exact levels_diagLines (levels_of_eq h (by simp) (by simp)) q _
  · exact h

theorem levels_raise (h : LevelsKept p s t) (c : Condition) : LevelsKept p s (raise c t) := by
  cases c with
  | transientNoise q n => exact h
  | hardFailure q c => exact levels_emit h _
  | operatorFatal c => exact levels_emit h _
  | absence q c | protocolViolationMsg q m | protocolViolationVdm q m => exact levels_logLine (levels_emit h _) q _

theorem levels_drawRoles (h : LevelsKept p s t) (q : Port) : LevelsKept p s (drawRoles q t) := by
  unfold drawRoles
  split
  · exact h
  · exact levels_of_eq h (by simp) (by simp)

theorem levels_diag_tx (h : LevelsKept p s t) (q : Port) (k : TxKind) (c : MsgCode) (o : Objs) :
    LevelsKept p s (tx q k c o (diag q t)) := levels_emit (levels_drawRoles (levels_point (levels_diag h q)) q) _

end

end Sys2Proof.Machine

/-! ## What `MAIN` turns VBUS on by (R123, R51)

`PowersBy G p` says that VBUS of port `p` is turned on, or the port taken into `DFP_VBUS_ON`, only where `G` holds;
`EntersBy` says so of a run of `MAIN`. It is proved of every primitive, for operations of any port `q`, and so of every
operation; `G` is called for only by an attach of port `p` itself. -/

namespace Sys2Proof.Machine

/-- Between `s` and `t`, VBUS of port `p` is turned on, or `DFP_VBUS_ON` entered there, only if `G`. -/
structure PowersBy (G : Prop) (p : Port) (s t : State) : Prop where
  vbus : (t.out p).vbus = .on → (s.out p).vbus = .on ∨ G
  state : (t.regs p).ps = .dfpVbusOn → (s.regs p).ps = .dfpVbusOn ∨ G

/-- A run of `MAIN` from `s` to `t` that powers port `p` only if `G`. -/
structure EntersBy (G : Prop) (p : Port) (s t : State) : Prop where
  cfg : t.cfg = s.cfg
  live : t.live p = s.live p
  levels : LevelsKept p s t
  powers : PowersBy G p s t

/-- An attach of port `p` may start in `s`: the port is live, and a CC line is at attach level, so far as the levels are
known to stay (R123). -/
def AttachPossible (p : Port) (s : State) : Prop :=
  s.live p = true ∧ (s.sched = [] → anyAttach s.cfg (ccLevels s p) = true)

section
variable {G : Prop} {p q : Port} {s t u : State}

theorem powersBy_trans (h : PowersBy G p s t) (h' : PowersBy G p t u) : PowersBy G p s u where
  vbus hu := (h'.vbus hu).elim h.vbus .inr
  state hu := (h'.state hu).elim h.state .inr

theorem powersBy_of_eq (hr : t.regs p = s.regs p) (ho : t.out p = s.out p) : PowersBy G p s t :=
  ⟨fun h => .inl (ho ▸ h), fun h => .inl (hr ▸ h)⟩

theorem entersBy_refl (G : Prop) (p : Port) (s : State) : EntersBy G p s s := ⟨rfl, rfl, levels_refl p s, .inl, .inl⟩

theorem entersBy_trans (h : EntersBy G p s t) (h' : EntersBy G p t u) : EntersBy G p s u where
  cfg := h'.cfg.trans h.cfg
  live := h'.live.trans h.live
  levels := levels_trans h.levels h'.levels
  powers := powersBy_trans h.powers h'.powers

/-- An attach that is possible where `MAIN` has come to was possible where it started. -/
theorem attachPossible_of_entersBy (h : EntersBy G p s t) (ht : AttachPossible p t) : AttachPossible p s := by
  obtain ⟨hl, ha⟩ := ht
  refine ⟨h.live ▸ hl, fun hs => ?_⟩
  obtain ⟨hsched, h1, h2⟩ := h.levels hs
  have ha := ha hsched
  rwa [ccLevels, h1, h2, h.cfg] at ha

/-! ### Primitives -/

/-- A continuation that keeps every field of `MAIN`. -/
theorem entersBy_keep (h : EntersBy G p s t) (hk : MainKept t u) (hl : LevelsKept p t u) : EntersBy G p s u :=
  entersBy_trans h ⟨hk.cfg, by rw [State.live, hk.regs, State.live], hl, powersBy_of_eq (hk.regs p) (hk.out p)⟩

/-- A continuation that leaves the port and the schedule as they are. -/
theorem entersBy_congr (h : EntersBy G p s t) (hc : u.cfg = t.cfg) (hr : u.regs p = t.regs p) (ho : u.out p = t.out p)
    (he : u.env p = t.env p) (hs : u.sched = t.sched) : EntersBy G p s u :=
  entersBy_trans h ⟨hc, by rw [State.live, hr, State.live], levels_of_eq (levels_refl p t) he hs,
    powersBy_of_eq hr ho⟩

theorem entersBy_updRegs (h : EntersBy G p s t) (q : Port) {f : PortRegs → PortRegs}
    (hp : ∀ r, (f r).present = r.present) (hs : ∀ r, (f r).setUp = r.setUp)
    (hf : ∀ r, q = p → (f r).ps = .dfpVbusOn → r.ps = .dfpVbusOn ∨ G) : EntersBy G p s (t.updRegs q f) := by
  refine entersBy_trans h ⟨by simp, ?_, levels_of_eq (levels_refl p t) (by simp) (by simp),
    fun hu => .inl (by simpa using hu), fun hu => ?_⟩
  · rw [State.live, State.live, regs_updRegs]
    split_ifs <;> simp [hp, hs]
  · rw [regs_updRegs] at hu
    split_ifs at hu with e
    · exact hf _ e.symm hu
    · exact .inl hu

/-- A continuation that writes other fields of a record. -/
theorem entersBy_updRegs_keep (h : EntersBy G p s t) (q : Port) {f : PortRegs → PortRegs}
    (hp : ∀ r, (f r).present = r.present := by intro _; rfl) (hs : ∀ r, (f r).setUp = r.setUp := by intro _; rfl)
    (hf : ∀ r, (f r).ps = r.ps := by intro _; rfl) : EntersBy G p s (t.updRegs q f) :=
  entersBy_updRegs h q hp hs fun r _ e => .inl (hf r ▸ e)

/-- A continuation that sets the policy state of a port to another than `DFP_VBUS_ON`. -/
theorem entersBy_enter (h : EntersBy G p s t) (q : Port) {x : PolicyState} (hx : x ≠ .dfpVbusOn) :
    EntersBy G p s (t.updRegs q fun r => { r with ps := x }) :=
  entersBy_updRegs h q (fun _ => rfl) (fun _ => rfl) fun _ _ e => absurd e hx

theorem entersBy_setPos (h : EntersBy G p s t) (x : MainPos) : EntersBy G p s (t.setPos x) :=
  entersBy_congr h rfl rfl rfl rfl rfl
theorem entersBy_setWake (h : EntersBy G p s t) (x : Bool) : EntersBy G p s (t.setWake x) :=
  entersBy_congr h rfl rfl rfl rfl rfl
theorem entersBy_setCalls (h : EntersBy G p s t) (x : List BreakCall) : EntersBy G p s (t.setCalls x) :=
  entersBy_congr h rfl rfl rfl rfl rfl
theorem entersBy_setHalt (h : EntersBy G p s t) (x : Halt) : EntersBy G p s (t.setHalt x) :=
  entersBy_congr h rfl rfl rfl rfl rfl
theorem entersBy_setWdogArmed (h : EntersBy G p s t) (x : Bool) : EntersBy G p s (t.setWdogArmed x) :=
  entersBy_congr h rfl rfl rfl rfl rfl
theorem entersBy_setFreeCtr (h : EntersBy G p s t) (x : Nat) : EntersBy G p s (t.setFreeCtr x) :=
  entersBy_congr h rfl rfl rfl rfl rfl
theorem entersBy_updShared (h : EntersBy G p s t) (q : Port) (f : Shared → Shared) : EntersBy G p s (t.updShared q f) :=
  entersBy_congr h (by simp) (by simp) (by simp) (by simp) (by simp)

theorem entersBy_point (h : EntersBy G p s t) : EntersBy G p s (point t) :=
  entersBy_keep h (mainKept_point t) (levels_point (levels_refl p t))
theorem entersBy_diag (h : EntersBy G p s t) (q : Port) : EntersBy G p s (diag q t) :=
  entersBy_keep h (mainKept_diag q t) (levels_diag (levels_refl p t) q)
theorem entersBy_delay (h : EntersBy G p s t) (q : Port) (d : DelayKind) : EntersBy G p s (delay q d t) :=
  entersBy_keep h (mainKept_delay q d t) (levels_emit (levels_point (levels_refl p t)) _)
theorem entersBy_raise (h : EntersBy G p s t) (c : Condition) : EntersBy G p s (raise c t) :=
  entersBy_keep h (mainKept_raise c t) (levels_raise (levels_refl p t) c)
theorem entersBy_tcpcReset (h : EntersBy G p s t) (q : Port) : EntersBy G p s (tcpcReset q t) :=
  entersBy_keep h (mainKept_tcpcReset q t) (levels_tcpcReset (levels_refl p t) q)
theorem entersBy_diag_tx (h : EntersBy G p s t) (q : Port) (k : TxKind) (c : MsgCode) (o : Objs) :
    EntersBy G p s (tx q k c o (diag q t)) :=
  entersBy_keep h (mainKept_diag_tx q k c o t) (levels_diag_tx (levels_refl p t) q k c o)
theorem entersBy_logLine (h : EntersBy G p s t) (q : Port) (l : LogBody) : EntersBy G p s (logLine q l t) :=
  entersBy_keep h (by constructor <;> simp) (levels_logLine (levels_refl p t) q l)
theorem entersBy_hostSend (h : EntersBy G p s t) (q : Port) (e : Event) : EntersBy G p s (hostSend q e t) :=
  entersBy_keep h (by constructor <;> simp) (levels_hostSend (levels_refl p t) q e)
theorem entersBy_uartPut (h : EntersBy G p s t) (q : Port) (b : Byte) : EntersBy G p s (uartPut q b t) :=
  entersBy_keep h (by constructor <;> simp) (levels_emit (levels_point (levels_refl p t)) _)
theorem entersBy_intStatusReadClear (h : EntersBy G p s t) (q : Port) : EntersBy G p s (intStatusReadClear q t).2 :=
  entersBy_keep h (by constructor <;> simp) (levels_intStatusReadClear (levels_refl p t) q)
theorem entersBy_rxGet (h : EntersBy G p s t) (q : Port) : EntersBy G p s (rxGet q t).2 :=
  entersBy_keep h (by constructor <;> simp) (levels_rxGet (levels_refl p t) q)
theorem entersBy_hostTryRecv (h : EntersBy G p s t) (q : Port) : EntersBy G p s (hostTryRecv q t).2 :=
  entersBy_keep h (by constructor <;> simp) (levels_hostTryRecv (levels_refl p t) q)
/-- An output write turns VBUS on only as the command that says so. -/
theorem entersBy_outWrite (h : EntersBy G p s t) (q : Port) {w : OutWrite} (hw : q = p → w = .vbus .on → G) :
    EntersBy G p s (outWrite q w t) := by
  refine entersBy_trans h ⟨by simp, by simp, levels_outWrite (levels_refl p t) q w, fun hu => ?_,
    fun hu => .inl (by simpa using hu)⟩
  rw [outWrite_out] at hu
  split_ifs at hu with e
  · cases w with
    | vbus v => exact .inr (hw e.symm (congrArg _ hu))
    | _ => exact .inl hu
  · exact .inl hu

/-- The two routing outputs are no VBUS command. -/
theorem entersBy_outWritePair_routing (h : EntersBy G p s t) (q : Port) (a : Bool) (b : SrcSel) :
    EntersBy G p s (outWritePair q (.laneSwap a) (.srcSel b) t) := by
  refine entersBy_trans h ⟨by simp, by simp, levels_outWritePair (levels_refl p t) q _ _, fun hu => .inl ?_,
    fun hu => .inl (by simpa using hu)⟩
  rw [outWritePair_out] at hu
  split_ifs at hu <;> exact hu

theorem entersBy_txVdmSerialRoute (h : EntersBy G p s t) (q : Port) : EntersBy G p s (txVdmSerialRoute q t) :=
  entersBy_outWritePair_routing (entersBy_diag_tx h q _ _ _) q _ _

/-! ### Policy engine -/

theorem entersBy_vbusOff (h : EntersBy G p s t) (q : Port) : EntersBy G p s (vbusOff q t) :=
  entersBy_outWrite (entersBy_delay (entersBy_outWrite (entersBy_diag h q) q (by simp)) q _) q (by simp)

theorem entersBy_disconnect (h : EntersBy G p s t) (q : Port) : EntersBy G p s (disconnect q t) :=
  entersBy_updRegs (entersBy_outWrite (entersBy_outWrite (entersBy_outWrite (entersBy_vbusOff (entersBy_diag h q) q) q
    (by simp)) q (by simp)) q (by simp)) q (f := disconnectedRegs) (fun _ => rfl) (fun _ => rfl)
    (by simp [disconnectedRegs])

theorem entersBy_outWrite_if (h : EntersBy G p s t) (c : Bool) (q : Port) {w : OutWrite}
    (hw : q = p → w = .vbus .on → G) : EntersBy G p s (if c then outWrite q w t else t) := by
  split_ifs
  · exact entersBy_outWrite h q hw
  · exact h

theorem entersBy_attach (h : EntersBy G p s t) (hG : q = p → G) (cc : Nat × Nat) : EntersBy G p s (attach q cc t) := by
  have h1 := entersBy_outWrite (entersBy_outWrite (entersBy_tcpcReset h q) q (w := .hdrRole .source) (by simp)) q
    (w := .vconn false) (by simp)
  have h2 := entersBy_outWrite (entersBy_updRegs_keep h1 q (f := fun r => { r with pol := selectPolarity cc })) q
    (w := .chipPol (chipPolOf (selectPolarity cc))) (by simp)
  have h3 := entersBy_outWrite (entersBy_outWrite (entersBy_outWrite_if h2 (wantVconn cc) q (w := .vconn true) (by simp)) q
    (w := .rxEn true) (by simp)) q (w := .vbus .on) fun e _ => hG e
  exact entersBy_diag_tx (entersBy_updRegs h3 q (f := fun r => { r with ps := .dfpVbusOn }) (fun _ => rfl) (fun _ => rfl)
    fun _ e _ => .inr (hG e)) q _ _ _

theorem entersBy_attachPoint (h : EntersBy G p s t) (q : Port) : EntersBy G p s (attachPoint q t) :=
  entersBy_point (entersBy_diag h q)

theorem entersBy_onAttach (hG : AttachPossible p s → G) (h : EntersBy G p s t) (hl : t.live q = true) :
    EntersBy G p s (onAttach q t) := by
  have hp := entersBy_attachPoint h q
  cases ha : anyAttach (attachPoint q t).cfg (ccLevels (attachPoint q t) q) with
  | false => rwa [onAttach_of_not_anyAttach ha]
  | true =>
    rw [onAttach_of_anyAttach ha]
    refine entersBy_attach hp (fun e => hG (attachPossible_of_entersBy hp ?_)) _
    subst e
    exact ⟨by simpa [attachPoint] using hl, fun _ => ha⟩

theorem entersBy_pollDisconnected (hG : AttachPossible p s → G) (h : EntersBy G p s t) (hl : t.live q = true) :
    EntersBy G p s (pollDisconnected q t) := by
  have hp := entersBy_attachPoint h q
  cases ha : anyAttach (attachPoint q t).cfg (ccLevels (attachPoint q t) q) with
  | false => rw [pollDisconnected_of_not_anyAttach ha]; exact entersBy_delay hp q _
  | true =>
    rw [pollDisconnected_of_anyAttach ha]
    exact entersBy_onAttach hG hp (by simpa [attachPoint] using hl)

theorem entersBy_tickVbusOn (h : EntersBy G p s t) (q : Port) : EntersBy G p s (tickVbusOn q t) := by
  have hn := entersBy_updRegs_keep (entersBy_diag h q) q (f := fun r => { r with sct := r.sct + 1 })
  obtain hc | hc := lt_or_ge (t.regs q).sct Config.srcCapRetry
  · rw [tickVbusOn_of_counting hc]; exact hn
  · rw [tickVbusOn_of_retry hc]
    exact entersBy_updRegs_keep (entersBy_diag_tx (entersBy_diag_tx hn q _ _ _) q _ _ _) q

theorem entersBy_tickReady (h : EntersBy G p s t) (q : Port) : EntersBy G p s (tickReady q t) :=
  entersBy_enter (entersBy_diag h q) q (by decide)

theorem entersBy_debounce (h : EntersBy G p s t) (q : Port) : EntersBy G p s (debounce q t) := by
  have hp := entersBy_attachPoint h q
  have count (f : Nat → Nat) : EntersBy G p s ((attachPoint q t).updRegs q fun r => { r with deb := f r.deb }) :=
    entersBy_updRegs_keep hp q
  unfold debounce
  dsimp only
  split_ifs
  · exact entersBy_disconnect (count (· + 1)) q
  · exact entersBy_raise (count (· + 1)) _
  · exact count fun _ => 0

theorem entersBy_tickState (hG : AttachPossible p s → G) (h : EntersBy G p s t) (hl : t.live q = true) :
    EntersBy G p s (tickState q t) := by
  unfold tickState
  split
  next => exact entersBy_pollDisconnected hG h hl
  next => exact entersBy_tickVbusOn h q
  next => exact entersBy_tickReady h q
  all_goals exact h

theorem entersBy_tick (hG : AttachPossible p s → G) (h : EntersBy G p s t) (hl : t.live q = true) :
    EntersBy G p s (tick q t) := by
  have hd := entersBy_tickState hG (entersBy_diag h q) (by simpa using hl)
  unfold tick
  dsimp only
  split_ifs
  · exact hd
  · exact entersBy_debounce hd q

theorem entersBy_onTxComplete (h : EntersBy G p s t) (q : Port) : EntersBy G p s (onTxComplete q t) := by
  have hd := entersBy_diag h q
  unfold onTxComplete
  dsimp only
  split
  next => exact entersBy_txVdmSerialRoute (entersBy_enter hd q (by decide)) q
  next => exact entersBy_enter (entersBy_diag_tx hd q _ _ _) q (by decide)
  all_goals exact hd

/-! ### Messages -/

/-- A reply that advances the policy state to another than `DFP_VBUS_ON` (R142, R144, R158). -/
theorem entersBy_reply (h : EntersBy G p s t) (q : Port) (k : TxKind) (c : MsgCode) (o : Objs) {x : PolicyState}
    (hx : x ≠ .dfpVbusOn) :
    EntersBy G p s ((tx q k c o (diag q (diag q t))).updRegs q fun r => { r with ps := x }) :=
  entersBy_enter (entersBy_diag_tx (entersBy_diag h q) q k c o) q hx

theorem entersBy_vdmDiscoverIdentityAck (h : EntersBy G p s t) (q : Port) (m : Msg) :
    EntersBy G p s (vdmDiscoverIdentityAck q m t) := by
  have hd := entersBy_diag h q
  have hn := entersBy_setFreeCtr hd ((diag q t).freeCtr + 1)
  unfold vdmDiscoverIdentityAck
  dsimp only
  split_ifs
  · exact entersBy_logLine hn q _
  · exact hn
  · exact hd

theorem entersBy_rxVdm (h : EntersBy G p s t) (q : Port) (m : Msg) : EntersBy G p s (rxVdm q m t) := by
  have hd := entersBy_diag h q
  unfold rxVdm
  dsimp only
  split
  next => exact entersBy_reply hd q _ _ _ (by decide)
  next => exact entersBy_vdmDiscoverIdentityAck hd q m
  next => exact entersBy_raise (entersBy_diag hd q) _

theorem entersBy_runRxOp (h : EntersBy G p s t) (q : Port) (o : RxOp) : EntersBy G p s (runRxOp q o t) := by
  cases o with
  | empty r => exact entersBy_diag h q
  | sourceCap m | prSwap m | drSwap m => exact entersBy_diag_tx (entersBy_diag h q) q _ _ _
  | request m | getSinkCap m => exact entersBy_reply h q _ _ _ (by decide)
  | vendorDefined m => exact entersBy_rxVdm h q m
  | other m => exact entersBy_raise (entersBy_diag h q) (.protocolViolationMsg q m)

theorem entersBy_onMessage (h : EntersBy G p s t) (q : Port) (m : RxRecord) : EntersBy G p s (onMessage q m t) :=
  entersBy_runRxOp (entersBy_diag h q) q _

/-! ### Event dispatcher -/

theorem entersBy_evVbusGood (h : EntersBy G p s t) (q : Port) : EntersBy G p s (evVbusGood q t) := by
  have hp := entersBy_attachPoint h q
  unfold evVbusGood
  dsimp only
  split_ifs
  · exact entersBy_diag_tx (entersBy_diag_tx hp q _ _ _) q _ _ _
  · exact entersBy_disconnect (entersBy_raise hp _) q

theorem entersBy_evHardReset (h : EntersBy G p s t) (q : Port) : EntersBy G p s (evHardReset q t) :=
  entersBy_disconnect (entersBy_raise (entersBy_diag h q) _) q

theorem entersBy_drainRxOnce (h : EntersBy G p s t) (hu : drainRxOnce q t = some u) : EntersBy G p s u := by
  have hg := entersBy_rxGet (entersBy_point (entersBy_point h)) q
  unfold drainRxOnce at hu
  dsimp only at hu
  split_ifs at hu
  split at hu <;> cases hu
  next m v e => rw [e] at hg; exact entersBy_onMessage hg q m
  next e => rw [e] at hg; exact hg

theorem entersBy_drainRx (h : EntersBy G p s t) (q : Port) (n : Nat) : EntersBy G p s (drainRx q n t) := by
  induction n generalizing t with
  | zero => exact h
  | succ n ih =>
    unfold drainRx
    split
    next e => exact ih (entersBy_drainRxOnce h e)
    next => exact entersBy_point h

theorem entersBy_evMsgRx (h : EntersBy G p s t) (q : Port) : EntersBy G p s (evMsgRx q t) :=
  entersBy_drainRx (entersBy_diag h q) q _

theorem entersBy_runEvent (h : EntersBy G p s t) (q : Port) (k : EvKind) : EntersBy G p s (runEvent q k t) := by
  cases k with
  | vbusGood => exact entersBy_evVbusGood h q
  | hardReset => exact entersBy_evHardReset h q
  | txSuccess => exact entersBy_onTxComplete (entersBy_diag h q) q
  | msgRx => exact entersBy_evMsgRx h q

theorem entersBy_runEvents (h : EntersBy G p s t) (q : Port) (ks : List EvKind) : EntersBy G p s (runEvents q ks t) := by
  induction ks generalizing t with
  | nil => exact h
  | cons k ks ih => exact ih (entersBy_runEvent h q k)

theorem live_runEvents (q : Port) (ks : List EvKind) (t : State) : (runEvents q ks t).live q = t.live q :=
  ((mainStep_runEvents (W := fun _ => [.policy]) (by simp) (mainStep_refl _ t) ks).boundary q).live

theorem entersBy_rearm (h : EntersBy G p s t) (q : Port) : EntersBy G p s (rearm q t) :=
  entersBy_updShared (entersBy_diag h q) q fun x => { x with irqEn := true }

theorem entersBy_service (hG : AttachPossible p s → G) (h : EntersBy G p s t) (hl : t.live q = true) :
    EntersBy G p s (service q t) := by
  have he := entersBy_runEvents (entersBy_intStatusReadClear (entersBy_diag h q) q) q
    (decodeStatus (intStatusReadClear q (diag q t)).2.cfg (intStatusReadClear q (diag q t)).1)
  have ht := entersBy_tick hG he (by rw [live_runEvents]; simpa using hl)
  exact entersBy_rearm ht q

/-! ### Multiplexer -/

/-- What every armed-mode operation starts with (R190, R205). -/
theorem entersBy_diag_disarm (h : EntersBy G p s t) (q : Port) : EntersBy G p s (diag q (disarmEscape q t)) :=
  entersBy_diag (entersBy_updRegs_keep h q) q

theorem entersBy_cmdForceDisconnect (h : EntersBy G p s t) (q : Port) : EntersBy G p s (cmdForceDisconnect q t) :=
  entersBy_disconnect (entersBy_updShared (entersBy_diag_disarm h q) q _) q

theorem entersBy_selectRoute (h : EntersBy G p s t) (q : Port) (r : Route) : EntersBy G p s (selectRoute q r t) :=
  entersBy_diag_tx (entersBy_updRegs_keep (entersBy_diag_disarm h q) q) q _ _ _

theorem entersBy_uartBreak (h : EntersBy G p s t) (q : Port) (b : Bool) :
    EntersBy G p s (outWrite q (.uartBreak b) (diag q t)) := entersBy_outWrite (entersBy_diag h q) q (by simp)

theorem entersBy_runByteOp (h : EntersBy G p s t) (q : Port) (o : ByteOp) : EntersBy G p s (runByteOp q o t) := by
  have hd := entersBy_diag_disarm h q
  cases o with
  | pass b => exact entersBy_uartPut (entersBy_diag h q) q b
  | escArm => exact entersBy_updRegs_keep (entersBy_diag h q) q (f := fun r => { r with esc := true })
  | escLiteral => exact entersBy_uartPut hd q _
  | cmdRebootTarget | cmdDebugProbe => exact entersBy_diag_tx hd q _ _ _
  | cmdSelfReset => exact entersBy_raise (entersBy_setWdogArmed hd true) (.operatorFatal .selfReset)
  | cmdFwUpdate => exact entersBy_raise (entersBy_setHalt hd .fwUpdate) (.operatorFatal .fwUpdate)
  | cmdForceDisconnect => exact entersBy_cmdForceDisconnect h q
  | cmdToggleVerbose => exact entersBy_diag (entersBy_updRegs_keep hd q) q
  | cmdRoute1 | cmdRoute2 => exact entersBy_selectRoute h q _
  | cmdHelp => exact entersBy_logLine hd q (.help (helpEntries (diag q (disarmEscape q t))))
  | cmdDrop b => exact hd

theorem entersBy_ringGet (h : EntersBy G p s t) (q : Port) : EntersBy G p s (ringGet q t).2 :=
  entersBy_updShared h q fun x => { x with ring := (ringPop (ringSlots t.cfg) (t.shared q).ring).2 }

theorem entersBy_drainRing (h : EntersBy G p s t) (q : Port) (n : Nat) : EntersBy G p s (drainRing q n t) := by
  induction n generalizing t with
  | zero => exact h
  | succ n ih =>
    have hg := entersBy_ringGet (entersBy_point h) q
    unfold drainRing
    split
    next u e => rw [e] at hg; exact entersBy_diag hg q
    next b u e => rw [e] at hg; exact ih (entersBy_hostSend (entersBy_diag hg q) q _)

theorem entersBy_pumpLoop (h : EntersBy G p s t) (q : Port) (n : Nat) : EntersBy G p s (pumpLoop q n t) := by
  induction n generalizing t with
  | zero => exact h
  | succ n ih =>
    have hg := entersBy_hostTryRecv (entersBy_point h) q
    unfold pumpLoop
    split
    next u e => rw [e] at hg; exact entersBy_drainRing (entersBy_diag hg q) q _
    next b u e =>
      rw [e] at hg
      have hb : EntersBy G p s (muxByte q b u) := entersBy_runByteOp hg q _
      dsimp only
      split_ifs
      · exact ih hb
      · exact hb

theorem entersBy_muxPump (h : EntersBy G p s t) (q : Port) : EntersBy G p s (muxPump q t) := entersBy_pumpLoop h q _

/-! ### Run loop -/

theorem entersBy_deliverCalls (h : EntersBy G p s t) (n : Nat) : EntersBy G p s (deliverCalls n t) := by
  induction n generalizing t with
  | zero => exact h
  | succ n ih =>
    unfold deliverCalls
    split_ifs
    · exact h
    · split
      · exact h
      next c rest _ =>
        have hc := entersBy_setCalls h rest
        refine ih ?_
        unfold deliverBreak
        split_ifs
        · exact entersBy_uartBreak hc _ true
        · exact entersBy_uartBreak hc _ false
        · exact hc

theorem entersBy_transportService (h : EntersBy G p s t) : EntersBy G p s (transportService t) :=
  entersBy_deliverCalls (entersBy_point h) _

theorem entersBy_idleWait (h : EntersBy G p s t) : EntersBy G p s (idleWait t) := by
  have hp := entersBy_point h
  unfold idleWait
  dsimp only
  split_ifs
  · exact entersBy_setPos (entersBy_setWake hp _) _
  · exact entersBy_setPos hp _

theorem entersBy_idleTest (h : EntersBy G p s t) : EntersBy G p s (idleTest t) :=
  entersBy_setPos (entersBy_setWake (entersBy_point h) _) _

theorem entersBy_takePending (h : EntersBy G p s t) (q : Port) : EntersBy G p s (takePending q t).2 :=
  entersBy_setPos (entersBy_updShared (entersBy_point h) q _) _

theorem entersBy_setPos_if (h : EntersBy G p s t) (c : Bool) (x : MainPos) :
    EntersBy G p s (if c then t.setPos x else t) := by
  split_ifs
  · exact entersBy_setPos h x
  · exact h

theorem entersBy_portPass (hG : AttachPossible p s → G) (h : EntersBy G p s t) (q : Port) :
    EntersBy G p s (portPass q t) := by
  have hp := entersBy_takePending h q
  unfold portPass
  split_ifs with hl
  · have hlp : (takePending q t).2.live q = true := by simpa [takePending, clearPending, State.live] using hl
    have hs : EntersBy G p s (if (takePending q t).1 then service q (takePending q t).2 else (takePending q t).2) := by
      split_ifs
      · exact entersBy_service hG hp hlp
      · exact hp
    exact entersBy_setPos_if (entersBy_muxPump hs q) _ _
  · exact entersBy_setPos h _

theorem entersBy_endPass (h : EntersBy G p s t) : EntersBy G p s (endPass t) := by
  have hi := entersBy_idleTest (entersBy_transportService (entersBy_setPos h .idleTest))
  unfold endPass
  dsimp only
  split_ifs
  · exact entersBy_idleWait hi
  · exact hi

theorem entersBy_runPass (hG : AttachPossible p s → G) (h : EntersBy G p s t) : EntersBy G p s (runPass t) := by
  have h0 := entersBy_portPass hG h .p0
  have h1 := entersBy_portPass hG h0 .p1
  unfold runPass
  dsimp only
  split_ifs
  · exact entersBy_endPass h1
  · exact h1
  · exact h0

/-! ### Every operation -/

theorem entersBy_onPort {f : State → State} (h : onPort q f s = .next t) (hf : s.live q = true → EntersBy G p s (f s)) :
    EntersBy G p s t := by
  obtain ⟨hl, hk⟩ | rfl := guardPort_next h
  · rw [stallOutcome_next hk]; exact hf hl
  · exact entersBy_refl G p _

/-- The operations that may attach port `p` (R122, R123, R126, R172, R220). -/
def attachingOps (p : Port) : List Instr := [.onAttach p, .pollDisconnected p, .tick p, .service p, .runPass]

/-- An operation of port `p` that writes a policy state or an output. -/
theorem entersBy_exec_port {i : Instr} (hi : instrPort i = some p) (hk : .policy ∈ opKinds i ∨ .attach ∈ opKinds i)
    (hG : i ∈ attachingOps p → AttachPossible p s → G) (h : exec i s = .next t) : EntersBy G p s t := by
  have r := entersBy_refl G p s
  cases i with
  | onAttach _ => cases hi; exact entersBy_onPort h fun hl => entersBy_onAttach (hG (by simp [attachingOps])) r hl
  | pollDisconnected _ =>
    cases hi; exact entersBy_onPort h fun hl => entersBy_pollDisconnected (hG (by simp [attachingOps])) r hl
  | tick _ => cases hi; exact entersBy_onPort h fun hl => entersBy_tick (hG (by simp [attachingOps])) r hl
  | service _ => cases hi; exact entersBy_onPort h fun hl => entersBy_service (hG (by simp [attachingOps])) r hl
  | tickVbusOn q => exact entersBy_onPort h fun _ => entersBy_tickVbusOn r q
  | tickReady q => exact entersBy_onPort h fun _ => entersBy_tickReady r q
  | debounce q => exact entersBy_onPort h fun _ => entersBy_debounce r q
  | onTxComplete q => exact entersBy_onPort h fun _ => entersBy_onTxComplete r q
  | disconnect q => exact entersBy_onPort h fun _ => entersBy_disconnect r q
  | vbusOff q => exact entersBy_onPort h fun _ => entersBy_vbusOff r q
  | onMessage q m => exact entersBy_onPort h fun _ => entersBy_onMessage r q m
  | rxRequest q m => exact entersBy_onPort h fun _ => entersBy_reply r q _ _ _ (x := .dfpAccept) (by decide)
  | rxGetSinkCap q m | vdmDiscoverIdentityReq q m =>
    exact entersBy_onPort h fun _ => entersBy_reply r q _ _ _ (x := .ready) (by decide)
  | rxVdm q m => exact entersBy_onPort h fun _ => entersBy_rxVdm r q m
  | txVdmSerialRoute q => exact entersBy_onPort h fun _ => entersBy_txVdmSerialRoute r q
  | evVbusGood q => exact entersBy_onPort h fun _ => entersBy_evVbusGood r q
  | evHardReset q => exact entersBy_onPort h fun _ => entersBy_evHardReset r q
  | evTxSuccess q => exact entersBy_onPort h fun _ => entersBy_onTxComplete (entersBy_diag r q) q
  | evMsgRx q => exact entersBy_onPort h fun _ => entersBy_evMsgRx r q
  | breakBegin q _ => exact entersBy_onPort h fun _ => entersBy_uartBreak r q true
  | breakEnd q _ => exact entersBy_onPort h fun _ => entersBy_uartBreak r q false
  | cmdForceDisconnect q => exact entersBy_onPort h fun _ => entersBy_cmdForceDisconnect r q
  | muxPump q => exact entersBy_onPort h fun _ => entersBy_muxPump r q
  | transportService | runPass => cases hi
  | _ => simp [opKinds] at hk

theorem portWrite_power {L : List WriteKind} {x y : PortRegs × Outputs} (hP : .policy ∉ L) (hA : .attach ∉ L)
    (h : PortWrite L x y) : (y.1.ps, y.2.vbus) = (x.1.ps, x.2.vbus) := by
  cases h with
  | disconnect h | enter h | lowReadings h | retries h | releaseVbus h | uartBreak h | routing h => exact absurd h hP
  | attach h => exact absurd h hA
  | route | verbose | esc => rfl

/-- A run that writes neither the policy's fields nor an attach powers no port. -/
theorem powersBy_mainStep {W : Port → List WriteKind} (hP : .policy ∉ W p) (hA : .attach ∉ W p) (h : MainStep W s t) :
    PowersBy G p s t := by
  have hw := portWrites_keep (f := fun x => (x.1.ps, x.2.vbus)) (fun _ _ => portWrite_power hP hA) (h.writes p)
  obtain ⟨hps, hvbus⟩ := Prod.ext_iff.1 hw
  exact ⟨fun hu => .inl (hvbus.symm.trans hu), fun hu => .inl (hps.symm.trans hu)⟩

/-- `SETUP` of any port powers no port (R121). -/
theorem powersBy_setup (q : Port) (s : State) : PowersBy G p s (setup q s) := by
  by_cases e : p = q
  · subst e
    obtain ⟨v, hv, h | ⟨c, h⟩⟩ := setup_cases p s
    · exact ⟨fun hu => by simp [h, setupPresent_out, hv.out] at hu,
        fun hu => by simp [h, setupPresent_regs, setUpRegs] at hu⟩
    · exact ⟨fun hu => by simp [h, markAbsent_out, hv.out] at hu,
        fun hu => .inl (by simpa [h, markAbsent_regs, hv.regs] using hu)⟩
  · obtain ⟨hr, ho⟩ := setup_other e s
    exact powersBy_of_eq hr ho

theorem powersBy_execMainEntry (h : execMainEntry s = .next t) : PowersBy G p s t := by
  unfold execMainEntry at h
  split_ifs at h
  rw [stallOutcome_next h]
  have h0 : PowersBy G p s ((s.setWdogArmed false).setHalt .running) := powersBy_of_eq rfl rfl
  have h1 := powersBy_trans (powersBy_trans h0 (powersBy_setup .p0 _)) (powersBy_setup .p1 _)
  exact ⟨h1.vbus, h1.state⟩

theorem entersBy_execRunPass (hG : AttachPossible p s → G) (h : execRunPass s = .next t) : EntersBy G p s t := by
  unfold execRunPass at h
  split_ifs at h
  rw [stallOutcome_next h]
  exact entersBy_runPass hG (entersBy_refl G p s)

theorem powersBy_execDeviceReset {c : ResetCause} (h : execDeviceReset c s = .next t) : PowersBy G p s t := by
  unfold execDeviceReset at h
  split_ifs at h <;> cases h
  · have hr : (resetDevice s).regs p = PortRegs.reset := by cases p <;> rfl
    have ho : (resetDevice s).out p = Outputs.reset := by cases p <;> rfl
    constructor
    · intro hu; rw [ho] at hu; cases hu
    · intro hu; rw [hr] at hu; cases hu
  · exact powersBy_of_eq rfl rfl

/-- An operation that writes neither the policy's fields nor an attach. -/
theorem powersBy_exec_other {i : Instr} (hP : .policy ∉ opKinds i) (hA : .attach ∉ opKinds i) (h : exec i s = .next t) :
    PowersBy G p s t := by
  cases i with
  | setup q => rw [execSetup_next h]; exact powersBy_setup q s
  | mainEntry => exact powersBy_execMainEntry h
  | deviceReset c => exact powersBy_execDeviceReset h
  | _ =>
    exact powersBy_mainStep (fun x => hP (portKinds_subset _ p x)) (fun x => hA (portKinds_subset _ p x))
      (mainStep_exec nofun nofun nofun h)

/-- Every operation powers a port only by an attach of it. -/
theorem powersBy_exec {i : Instr} (hG : i ∈ attachingOps p → AttachPossible p s → G) (h : exec i s = .next t) :
    PowersBy G p s t := by
  have r := entersBy_refl G p s
  by_cases hk : .policy ∈ opKinds i ∨ .attach ∈ opKinds i
  · cases hi : instrPort i with
    | some q =>
      by_cases e : p = q
      · subst e; exact (entersBy_exec_port hi hk hG h).powers
      · obtain ⟨hr, ho⟩ := exec_other hi e h
        exact powersBy_of_eq hr ho
    | none =>
      cases i with
      | transportService => rw [stallOutcome_next h]; exact (entersBy_transportService r).powers
      | runPass => exact (entersBy_execRunPass (hG (by simp [attachingOps])) h).powers
      | irqHandler | mainEntry | idleWait | deviceReset => simp [opKinds] at hk
      | _ => cases hi
  · obtain ⟨hP, hA⟩ := not_or.mp hk
    exact powersBy_exec_other hP hA h

end

/-- Settles O20: what calls for an attach is one of the five operations, on a port where it is possible. -/
theorem vbusOnOnlyByAttach : Obligations.VbusOnOnlyByAttach := by
  intro i s t p h hnew
  have hp : PowersBy (i ∈ attachingOps p ∧ AttachPossible p s) p s t := powersBy_exec And.intro h
  obtain ⟨hi, hl, ha⟩ : i ∈ attachingOps p ∧ AttachPossible p s := by
    obtain ⟨hoff, hon⟩ | ⟨hoff, hon⟩ := hnew
    · exact (hp.vbus hon).resolve_left hoff
    · exact (hp.state hon).resolve_left hoff
  exact ⟨hl, hi, ha⟩

end Sys2Proof.Machine

/-! # The message family: dispatch, replies and fixed transmissions of a port -/

/-! ## Runs of optional log lines (R267) -/

namespace Sys2Proof.Machine

/-- From `s` optional lines of class `VERBOSE` of port `p`, and nothing else, have led to `u` (R267). -/
structure DiagRun (p : Port) (s u : State) : Prop where
  kept : MainKept s u
  sends : SendsTo (· = p) s u
  quiet : Quiet s → QuietRun s u []

section
variable {p : Port} {s u : State}

theorem diagRun_refl (p : Port) (s : State) : DiagRun p s s := ⟨mainKept_refl s, sends_refl _ s, quietRun_refl⟩

theorem diagRun_diag (h : DiagRun p s u) : DiagRun p s (diag p u) :=
  ⟨mainKept_trans h.kept (mainKept_diag p u), sends_diag rfl h.sends, fun hq => quietRun_diag (h.quiet hq) p⟩

/-- The `DIAG` lines at the start of an operation. -/
theorem diagRun_start (p : Port) (s : State) : DiagRun p s (diag p s) := diagRun_diag (diagRun_refl p s)

end

end Sys2Proof.Machine

/-! ## Transmissions (R149) -/

namespace Sys2Proof.Machine

/-! ### What a transmit operation hands to the transceiver -/

section
variable (p : Port) (s : State)

theorem txSourceCap_eq : txSourceCap p s = tx p .sourceCap .sourceCap s.cfg.srcCapObjs (diag p s) := by
  simp [txSourceCap]

theorem txRequest_eq : txRequest p s = tx p .request .request s.cfg.requestObjs (diag p s) := by simp [txRequest]

theorem txSinkCap_eq : txSinkCap p s = tx p .sinkCap .sinkCap s.cfg.sinkCapObjs (diag p s) := by simp [txSinkCap]

theorem txProbe_eq : txProbe p s = tx p .probe s.cfg.probeCode s.cfg.probeObjs (diag p s) := by simp [txProbe]

theorem txIdentityAck_eq : txIdentityAck p s = tx p .identityAck .vendorDefined s.cfg.identityObjs (diag p s) := by
  simp [txIdentityAck]

/-- A SET ACTION transmission after the optional `DIAG` lines (R102). -/
theorem txAction_diag (k : TxKind) (a : VdmAction) :
    txAction p k a (diag p s) = tx p k .vendorDefined (actionObjs s.cfg.actions a) (diag p s) := by simp [txAction]

end

section
variable {p : Port} {s u : State} {i : Instr} {f : State → State} {k : TxKind} {c : MsgCode} {o : Objs}

/-- An operation that is `DIAG` lines and then one transmission only transmits. -/
theorem transmitsOnly_of_tx (hl : s.live p = true) (ht : HostTakes p s) (hd : DiagRun p s u)
    (hi : exec i s = onPort p f s) (hf : f s = tx p k c o (diag p u)) : TransmitsOnly i p s k c o := by
  have hs : SendsTo (· = p) s (f s) := hf ▸ sends_diag_tx (D := (· = p)) rfl hd.sends k c o
  refine ⟨f s, hi.trans (onPort_completes hl ht hs), ?_, fun hq => ?_⟩
  · rw [hf]
    exact mainKept_trans hd.kept (mainKept_diag_tx p k c o u)
  · obtain ⟨m, hm, hr⟩ := quietRun_diag_tx (hd.quiet hq) p k c o
    obtain ⟨hb, ha⟩ := quietRun_boundary hr (rewritten_refl p s)
    exact hf ▸ ⟨hb, m, hm, ha⟩

/-- As `transmitsOnly_of_tx`, for an operation that then moves the policy engine to the state `x`. -/
theorem transmitsAndSets_of_tx {x : PolicyState} (hl : s.live p = true) (ht : HostTakes p s) (hd : DiagRun p s u)
    (hi : exec i s = onPort p f s) (hf : f s = (tx p k c o (diag p u)).updRegs p fun r => { r with ps := x }) :
    TransmitsAndSets i p s { s.regs p with ps := x } k c o := by
  have hs : SendsTo (· = p) s (f s) := hf ▸ sends_updRegs (sends_diag_tx (D := (· = p)) rfl hd.sends k c o) p _
  have hk : MainKept s (tx p k c o (diag p u)) := mainKept_trans hd.kept (mainKept_diag_tx p k c o u)
  refine ⟨f s, hi.trans (onPort_completes hl ht hs), ?_, ?_, ?_, fun hq => ?_⟩
  · rw [hf]
    exact othersKept_updRegs (othersKept_of_mainKept hk) _
  · rw [hf, regs_updRegs, if_pos rfl, hk.regs]
  · rw [hf, out_updRegs, hk.out]
  · obtain ⟨m, hm, hr⟩ := quietRun_diag_tx (hd.quiet hq) p k c o
    have hr' := quietRun_updRegs hr p (fun r => { r with ps := x }) (fun _ => rfl) fun _ => rfl
    obtain ⟨hb, ha⟩ := quietRun_boundary hr' (rewritten_updRegs (rewritten_refl p s) _)
    exact hf ▸ ⟨hb, m, hm, ha⟩

end

/-! ### The identity reply (R157) -/

section
variable {c : Params}

theorem identityIsAck_of_paramsOk (h : paramsOk c = true) : identityIsAck c = true := by
  simp only [paramsOk, Bool.and_eq_true] at h
  obtain ⟨⟨⟨⟨⟨-, h⟩, -⟩, -⟩, -⟩, -⟩ := h
  exact h

/-- A message with the objects of the identity reply is a DISCOVER_IDENTITY ack by the block's own test (R101). -/
theorem vdmClass_of_identityObjs (h : identityIsAck c = true) {m : Msg} (hm : m.obj = c.identityObjs) :
    vdmClass c m = .discoverIdentityAck := by
  unfold identityIsAck at h
  unfold vdmClass
  rw [hm]
  cases hobjs : c.identityObjs.val with
  | nil => simp [hobjs] at h
  | cons o os =>
    rw [hobjs] at h
    obtain ⟨hack, hreq⟩ : matchesAny c.discIdAck o = true ∧ matchesAny c.discIdReq o = false := by simpa using h
    simp [hack, hreq]

end

/-- Settles O33: each operation is its `DIAG` lines and one transmission. -/
theorem fixedTransmissions : Obligations.FixedTransmissions := by
  intro s p hl ht
  have d := diagRun_refl p s
  refine ⟨?sourceCap, ?request, ?accept, ?reject, ?psRdy, ?sinkCap, ?probe, ?identityAck, ?reboot, ?dfuHold, ?pdReset,
    ?ack⟩
  case sourceCap => exact transmitsOnly_of_tx hl ht d rfl (txSourceCap_eq p s)
  case request => exact transmitsOnly_of_tx hl ht d rfl (txRequest_eq p s)
  case accept => exact transmitsOnly_of_tx (f := txAccept p) hl ht d rfl rfl
  case reject => exact transmitsOnly_of_tx (f := txReject p) hl ht d rfl rfl
  case psRdy => exact transmitsOnly_of_tx (f := txPsRdy p) hl ht d rfl rfl
  case sinkCap => exact transmitsOnly_of_tx hl ht d rfl (txSinkCap_eq p s)
  case probe => exact transmitsOnly_of_tx hl ht d rfl (txProbe_eq p s)
  case identityAck => exact transmitsOnly_of_tx hl ht d rfl (txIdentityAck_eq p s)
  case reboot => exact transmitsOnly_of_tx (f := txVdmReboot p) hl ht d rfl (txAction_diag p s _ _)
  case dfuHold => exact transmitsOnly_of_tx (f := txVdmDfuHold p) hl ht d rfl (txAction_diag p s _ _)
  case pdReset => exact transmitsOnly_of_tx (f := txVdmPdReset p) hl ht d rfl (txAction_diag p s _ _)
  case ack => exact fun hc _ hm => vdmClass_of_identityObjs (identityIsAck_of_paramsOk hc) hm

/-! ### The serial route (R164, R165) -/

theorem routeLaneSwap_eq (r : Route) (x : Polarity) : routeLaneSwap r x = decide (r = .sbu ∧ x = .cc2) := by
  cases r <;> cases x <;> rfl

/-- Settles O34: the run of the operation, with the two outputs as R165 gives them. -/
theorem serialRouteSetsRoutingOutputs : Obligations.SerialRouteSetsRoutingOutputs := by
  intro s p hl ht
  refine ⟨txVdmSerialRoute p s, onPort_completes hl ht (sends_txVdmSerialRoute rfl (sends_refl _ s)),
    othersKept_txVdmSerialRoute (othersKept_refl p s), txVdmSerialRoute_regs p p s, ?_, fun hq => ?_⟩
  · rw [txVdmSerialRoute_out, routeLaneSwap_eq, routeSrcSel]
  · obtain ⟨m, hm, hr⟩ := quietRun_txVdmSerialRoute (quietRun_refl hq) p
    obtain ⟨hb, ha⟩ := quietRun_boundary hr (rewritten_updOut (rewritten_refl p s) _)
    refine ⟨hb, m, hm, ?_⟩
    rw [txVdmSerialRoute_out]
    exact ha

end Sys2Proof.Machine

/-! ## Received messages (R140 to R148, R158 to R160) -/

namespace Sys2Proof.Machine

/-- Settles O29: the transmit operation, with its own `DIAG` lines, after those of the message's operation. -/
theorem rxRepliesOnly : Obligations.RxRepliesOnly := by
  intro s p m hl ht
  have d := diagRun_start p s
  exact ⟨transmitsOnly_of_tx (f := rxSourceCap p m) hl ht d rfl (by simp [rxSourceCap, txRequest_eq]),
    transmitsOnly_of_tx (f := rxPrSwap p m) hl ht d rfl rfl, transmitsOnly_of_tx (f := rxDrSwap p m) hl ht d rfl rfl⟩

/-- Settles O30: as `rxRepliesOnly`, with the new policy state, whatever the old one was (R167). -/
theorem rxRepliesAndAdvances : Obligations.RxRepliesAndAdvances := by
  intro s p m hl ht
  have d := diagRun_start p s
  exact ⟨transmitsAndSets_of_tx (f := rxRequest p m) hl ht d rfl rfl,
    transmitsAndSets_of_tx (f := rxGetSinkCap p m) hl ht d rfl (by simp [rxGetSinkCap, txSinkCap_eq]),
    transmitsAndSets_of_tx (f := vdmDiscoverIdentityReq p m) hl ht d rfl
      (by simp [vdmDiscoverIdentityReq, txIdentityAck_eq])⟩

/-! ### Messages that are ignored or only logged -/

section
variable {p : Port} {s u : State}

theorem diagRun_setFreeCtr (h : DiagRun p s u) (x : Nat) : DiagRun p s (u.setFreeCtr x) :=
  ⟨mainKept_trans h.kept (by constructor <;> simp), sends_setFreeCtr h.sends x,
    fun hq => quietRun_note (h.quiet hq) (notes_setFreeCtr u x)⟩

/-- An optional line of class `VERBOSE` leaves nothing a statement counts (R267). -/
theorem diagRun_logLine (h : DiagRun p s u) {l : LogBody} (hl : verboseClass l = true) : DiagRun p s (logLine p l u) :=
  ⟨mainKept_trans h.kept (by constructor <;> simp), sends_logLine (D := (· = p)) rfl h.sends l,
    fun hq => quietRun_note (h.quiet hq) (notes_logLine_verbose (h.quiet hq).quiet p l hl)⟩

/-- A DISCOVER_IDENTITY ack leaves nothing but optional lines (R159, D19). -/
theorem diagRun_vdmDiscoverIdentityAck (p : Port) (m : Msg) (s : State) : DiagRun p s (vdmDiscoverIdentityAck p m s) := by
  have hd := diagRun_start p s
  unfold vdmDiscoverIdentityAck
  dsimp only
  split_ifs
  · exact diagRun_logLine (diagRun_setFreeCtr hd _) rfl
  · exact diagRun_setFreeCtr hd _
  · exact hd

/-- An operation that is optional lines only completes, and nothing a statement counts has changed. -/
theorem completes_of_diagRun {i : Instr} {f : State → State} (hl : s.live p = true) (ht : HostTakes p s)
    (hi : exec i s = onPort p f s) (hd : DiagRun p s (f s)) :
    ∃ t, exec i s = .next t ∧ MainKept s t ∧ (Quiet s → BoundaryKept s t ∧ Adds s t []) :=
  ⟨f s, hi.trans (onPort_completes hl ht hd.sends), hd.kept, fun hq =>
    quietRun_boundary (hd.quiet hq) (rewritten_refl p s)⟩

/-- Settles O31: both operations are optional lines and nothing else. -/
theorem ignoredMessages : Obligations.IgnoredMessages := by
  intro s p r m i hl ht hi
  obtain rfl | rfl := hi
  · exact completes_of_diagRun (f := rxEmpty p r) hl ht rfl (diagRun_start p s)
  · exact completes_of_diagRun (f := vdmDiscoverIdentityAck p m) hl ht rfl (diagRun_vdmDiscoverIdentityAck p m s)

/-- Recording a condition of port `p` after the `DIAG` lines of an operation (R240, R262): `MAIN`'s fields are kept, and in a
quiet environment the events of the record, `es`, are added and nothing else happens. -/
theorem completes_of_raise {i : Instr} {f : State → State} {c : Condition} {es : List Event} (hl : s.live p = true)
    (ht : HostTakes p s) (hi : exec i s = onPort p f s) (hf : f s = raise c (diag p s)) (hc : conditionPort c = some p)
    (hn : Quiet s → Notes (diag p s) (raise c (diag p s)) es) :
    ∃ t, exec i s = .next t ∧ MainKept s t ∧ (Quiet s → BoundaryKept s t ∧ Adds s t es) := by
  have hs : SendsTo (· = p) s (f s) := hf ▸ sends_diag_raise (D := (· = p)) rfl (sends_refl _ s) c hc
  refine ⟨f s, hi.trans (onPort_completes hl ht hs), ?_, fun hq => ?_⟩
  · rw [hf]
    exact mainKept_trans (mainKept_diag p s) (mainKept_raise c _)
  · have hr := quietRun_note (quietRun_diag (quietRun_refl hq) p) (hn hq)
    exact hf ▸ quietRun_boundary hr (rewritten_refl p s)

end

/-- Settles O32: the `DIAG` lines keep the connectivity of the channel, so the line is lost by that of the start. -/
theorem unknownMessagesAreLogged : Obligations.UnknownMessagesAreLogged := by
  intro s p m hl ht
  have henv : Quiet s → (diag p s).env p = s.env p := fun hq =>
    quietRun_env (quietRun_diag (quietRun_refl hq) p) p
  refine ⟨completes_of_raise (f := rxOther p m) hl ht rfl rfl rfl fun hq => ?_,
    completes_of_raise (f := vdmOther p m) hl ht rfl rfl rfl fun hq => ?_⟩
  · simpa only [henv hq] using notes_raise (quiet_diag hq p) (.protocolViolationMsg p m)
  · simpa only [henv hq] using notes_raise (quiet_diag hq p) (.protocolViolationVdm p m)

/-! ### Dispatch (R140, R143) -/

section
variable {p : Port} {s : State}

/-- The operation of a VDM class, as an effect on a live port (R143). -/
def runVdm (p : Port) (m : Msg) : VdmClass → State → State
  | .discoverIdentityReq => vdmDiscoverIdentityReq p m
  | .discoverIdentityAck => vdmDiscoverIdentityAck p m
  | .other => vdmOther p m

theorem exec_rxOp (o : RxOp) (p : Port) (s : State) : exec (o.instr p) s = onPort p (runRxOp p o) s := by cases o <;> rfl

theorem exec_vdmClass (v : VdmClass) (p : Port) (m : Msg) (s : State) :
    exec (v.instr p m) s = onPort p (runVdm p m v) s := by cases v <;> rfl

theorem onMessage_eq (p : Port) (r : RxRecord) (s : State) :
    onMessage p r s = runRxOp p (decodeRecord s.cfg r) (diag p s) := by simp [onMessage]

theorem rxVdm_eq (p : Port) (m : Msg) (s : State) : rxVdm p m s = runVdm p m (vdmClass s.cfg m) (diag p s) := by
  simp only [rxVdm, diag_cfg]
  cases vdmClass s.cfg m <;> rfl

theorem sends_runVdm (p : Port) (m : Msg) (v : VdmClass) (s : State) : SendsTo (· = p) s (runVdm p m v s) := by
  have r := sends_refl (· = p) s
  cases v with
  | discoverIdentityReq => exact sends_reply (D := (· = p)) rfl r _ _ _ .ready
  | discoverIdentityAck => exact sends_vdmDiscoverIdentityAck (D := (· = p)) rfl r m
  | other => exact sends_diag_raise (D := (· = p)) rfl r (.protocolViolationVdm p m) rfl

/-- An operation that is its `DIAG` lines and then the operation `j` answers, when both complete, what `j` answers after
those lines. -/
theorem dispatches_after_diag {i j : Instr} {f g : State → State} (hl : s.live p = true) (ht : HostTakes p s)
    (hi : exec i s = onPort p f s) (hj : exec j (diag p s) = onPort p g (diag p s)) (hfg : f s = g (diag p s))
    (hg : SendsTo (· = p) (diag p s) (g (diag p s))) :
    ∃ u t, MainKept s u ∧ (Quiet s → Quiet u ∧ BoundaryKept s u ∧ Adds s u []) ∧ exec j u = .next t ∧
      exec i s = .next t := by
  have hd := diagRun_start p s
  refine ⟨diag p s, g (diag p s), hd.kept, fun hq => ⟨quiet_diag hq p, ?_⟩, ?_, ?_⟩
  · exact quietRun_boundary (hd.quiet hq) (rewritten_refl p s)
  · exact hj.trans (onPort_completes (by simpa using hl) (hostTakes_diag ht ht) hg)
  · rw [← hfg]
    exact hi.trans (onPort_completes hl ht (hfg ▸ sends_trans hd.sends hg))

end

/-- Settles O27: the record is decoded by the parameters, which the `DIAG` lines keep. -/
theorem onMessageDispatchesByClass : Obligations.OnMessageDispatchesByClass := by
  intro s p r hl ht
  exact dispatches_after_diag hl ht rfl (exec_rxOp _ p _) (onMessage_eq p r s)
    (sends_runRxOp (D := (· = p)) rfl (sends_refl _ _) _)

/-- Settles O28: as O27, by the sub-command class. -/
theorem rxVdmDispatchesBySubCommand : Obligations.RxVdmDispatchesBySubCommand := by
  intro s p m hl ht
  exact dispatches_after_diag hl ht rfl (exec_vdmClass _ p m _) (rxVdm_eq p m s) (sends_runVdm p m _ _)

end Sys2Proof.Machine

/-! # The event family: the interrupt handler, `SERVICE` and its events -/

/-! ## The handler and the re-arm (R171, R177) -/

namespace Sys2Proof.Machine

section
variable {p : Port} {s : State}

/-- One run of the handler for port `p`, with whatever free value the choice between two ready ports drew (R171, R253). -/
theorem irqTaken_takeChipIrq (p : Port) (n : Nat) (s : State) : IrqTaken p s (takeChipIrq p (s.setFreeCtr n)) := by
  constructor
  case main => constructor <;> simp
  all_goals simp +contextual [takeChipIrq, maskLine, setPending]

/-- The handler runs for a port that is ready, if one is; of two, whichever the free choice names is (assumption log 9). -/
theorem chipIrq_of_ready (h : irqReady s p = true) :
    ∃ q n, irqReady s q = true ∧ chipIrq s = takeChipIrq q (s.setFreeCtr n) := by
  unfold chipIrq
  split_ifs with h0 h1 h1
  · exact ⟨_, _, by cases Config.irqFirst s.freeCtr <;> assumption, rfl⟩
  · exact ⟨.p0, s.freeCtr, h0, rfl⟩
  · exact ⟨.p1, s.freeCtr, h1, rfl⟩
  · cases p <;> contradiction

/-- `REARM` is its `DIAG` lines and the write of the line mask (R177). -/
theorem rearm_shared (p q : Port) (s : State) : (rearm p s).shared q =
    if q = p then { (diag p s).shared q with irqEn := true } else (diag p s).shared q := by simp [rearm, armLine]

theorem mainKept_armLine (p : Port) (s : State) : MainKept s (armLine p s) := by constructor <;> simp [armLine]

theorem mainKept_rearm (p : Port) (s : State) : MainKept s (rearm p s) :=
  mainKept_trans (mainKept_diag p s) (mainKept_armLine p _)

/-- Arming a line can make its handler ready, so what a quiet `REARM` leaves is quiet no more, but for the counter and the
trace it is still the armed start. -/
theorem notes_rearm (h : Quiet s) (p : Port) : Notes (armLine p s) (rearm p s) [] := notes_updShared (notes_diag h p) p _

theorem boundaryKeptBut_armLine (p : Port) (s : State) : BoundaryKeptBut p s (armLine p s) := by
  constructor <;> simp +contextual [armLine]

end

/-- Settles O35: with no port ready the handler has nothing to run for, otherwise it runs once. -/
theorem irqHandlerMarksAndMasks : Obligations.IrqHandlerMarksAndMasks := by
  intro s
  refine ⟨fun h => congrArg Host.Outcome.next (chipIrq_of_not_ready h), fun ⟨p, hp⟩ => ?_⟩
  obtain ⟨q, n, hq, he⟩ := chipIrq_of_ready hp
  exact ⟨q, chipIrq s, hq, rfl, he ▸ irqTaken_takeChipIrq q n s⟩

/-- Settles O39: the `DIAG` lines, then the one write. -/
theorem rearmArmsLine : Obligations.RearmArmsLine := by
  intro s p hl ht
  refine ⟨rearm p s, onPort_completes hl ht (sends_rearm rfl (sends_refl _ s)), mainKept_rearm p s,
    by simp [rearm_shared], fun hq => ?_⟩
  have hn := notes_rearm hq p
  have hb := notes_boundaryKept hn
  refine ⟨boundaryKeptBut_keep (boundaryKeptBut_armLine p s) hb, ?_, ?_⟩
  · simp [hb.shared, armLine]
  · simpa [Adds, armLine] using notes_adds hn

/-! ## `EV_VBUS_GOOD` (R173) -/

section
variable {p : Port} {s t v : State} {es : List Event}

/-- The two branches of `EV_VBUS_GOOD`, by the level at its interrupt point (R173). -/
theorem evVbusGood_of_present (h : ((attachPoint p s).env p).vbusPresent = true) :
    evVbusGood p s = txProbe p (txSourceCap p (attachPoint p s)) := if_pos h

theorem evVbusGood_of_absent (h : ((attachPoint p s).env p).vbusPresent = false) :
    evVbusGood p s = disconnect p (raise (.hardFailure p .vbusLost) (attachPoint p s)) := if_neg (Bool.not_eq_true _ ▸ h)

theorem quietRun_evVbusGood_present (h : QuietRun v t es) (hv : (v.env p).vbusPresent = true) :
    ∃ m m', TxMessage v p .sourceCap v.cfg.srcCapObjs m ∧ TxMessage v p v.cfg.probeCode v.cfg.probeObjs m' ∧
      QuietRun v (evVbusGood p t) (es ++ [.tx p .sourceCap m, .tx p .probe m']) := by
  have hp := quietRun_attachPoint h p
  rw [evVbusGood_of_present (by rwa [quietRun_env hp])]
  obtain ⟨m, hm, h1⟩ := quietRun_txSourceCap hp p
  obtain ⟨m', hm', h2⟩ := quietRun_txProbe h1 p
  exact ⟨m, m', hm, hm', by simpa using h2⟩

theorem quietRun_evVbusGood_absent (h : QuietRun v t es) (hv : (v.env p).vbusPresent = false) :
    QuietRun ((v.updOut p disconnectedOut).updRegs p disconnectedRegs) (evVbusGood p t)
      (es ++ .raised (.hardFailure p .vbusLost) :: disconnectEvents p) := by
  have hp := quietRun_attachPoint h p
  rw [evVbusGood_of_absent (by rwa [quietRun_env hp])]
  simpa using quietRun_disconnect (quietRun_raise_hardFailure hp p .vbusLost) p

end

/-- Settles O37: one quiet run per branch. -/
theorem vbusGoodBranchesOnLevel : Obligations.VbusGoodBranchesOnLevel := by
  intro s p hl hq
  have hx := onPort_completes hl (hq.2 p) (sends_evVbusGood rfl (sends_refl _ s))
  have r := quietRun_refl hq
  refine ⟨evVbusGood p s, hx, ?_⟩
  cases hv : (s.env p).vbusPresent with
  | true =>
    obtain ⟨m, m', hm, hm', h1⟩ := quietRun_evVbusGood_present r hv
    obtain ⟨ho, hb, hr, hout, ha⟩ := quietRun_frame h1 (rewritten_refl p s)
    exact ⟨ho, hb, fun _ => ⟨hr, hout, m, m', hm, hm', ha⟩, nofun⟩
  | false =>
    obtain ⟨ho, hb, hr, hout, ha⟩ := quietRun_frame (quietRun_evVbusGood_absent r hv)
      (rewritten_updRegs (rewritten_updOut (rewritten_refl p s) _) _)
    exact ⟨ho, hb, nofun, fun _ => ⟨by simpa using hr, by simpa using hout, ha⟩⟩

end Sys2Proof.Machine

/-! ## `SERVICE` (R172, R178, R180) -/

namespace Sys2Proof.Machine

section
variable {p : Port} {s : State}

/-! ### The status read (R64) -/

/-- The state in which the status of port `p` is read and cleared. -/
def statusCleared (p : Port) (s : State) : State :=
  s.updEnv p fun e => { e with tcpc := putStatus s.cfg e.tcpc ⟨0, 0, 0⟩ }

theorem intStatusReadClear_of_quiet (h : Quiet s) (p : Port) :
    intStatusReadClear p s = (latchedStatus s.cfg (s.env p).tcpc, statusCleared p s) := by
  simp [intStatusReadClear, point_of_quiet h, effect, quiet_resetReq h, statusCleared]

theorem quiet_statusCleared (h : Quiet s) (p : Port) : Quiet (statusCleared p s) :=
  quiet_updEnv h p _ (fun _ => rfl) (fun _ => rfl) fun _ => rfl

theorem mainKept_intStatusReadClear (p : Port) (s : State) : MainKept s (intStatusReadClear p s).2 := by
  constructor <;> simp

/-- The `DIAG` lines and the status read, in a quiet environment: the latched status is the answer, and it is cleared. -/
theorem statusRead_of_quiet (h : Quiet s) (p : Port) :
    (intStatusReadClear p (diag p s)).1 = latchedStatus s.cfg (s.env p).tcpc ∧
      QuietRun (statusCleared p s) (intStatusReadClear p (diag p s)).2 [] := by
  have hd := quietRun_diag (quietRun_refl h) p
  rw [intStatusReadClear_of_quiet hd.quiet]
  refine ⟨by simp [quietRun_env hd], quiet_statusCleared hd.quiet p, ?_⟩
  simpa [statusCleared] using
    notes_updEnv hd.notes p fun e => { e with tcpc := putStatus s.cfg e.tcpc ⟨0, 0, 0⟩ }

/-! ### A sequence of events -/

/-- The first operation of a sequence completes, and the rest runs from where it ended. -/
theorem execAll_cons_of_next {i : Instr} {is : List Instr} {t : State} (h : exec i s = .next t) :
    execAll (i :: is) s = execAll is t := by rw [execAll, h]

theorem exec_event (k : EvKind) (p : Port) (s : State) : exec (k.instr p) s = onPort p (runEvent p k) s := by
  cases k <;> rfl

/-- The operations of the events of a status value, one after the other, are `runEvents`; none suppresses a later one
(R178). -/
theorem execAll_events (hl : s.live p = true) (ht : HostTakes p s) (ks : List EvKind) (is : List Instr) :
    execAll (ks.map (EvKind.instr p) ++ is) s = execAll is (runEvents p ks s) := by
  induction ks generalizing s with
  | nil => rfl
  | cons k ks ih =>
    have hs : SendsTo (· = p) s (runEvent p k s) := sends_runEvent (D := (· = p)) rfl (sends_refl _ s) k
    have hx := (exec_event k p s).trans (onPort_completes hl ht hs)
    have hl' : (runEvent p k s).live p = true := (live_runEvents p [k] s).trans hl
    exact (execAll_cons_of_next hx).trans (ih hl' (hs.duty (fun _ e => e ▸ ht) p ht))

theorem live_tick (hl : s.live p = true) : (tick p s).live p = true :=
  mainStep_live (mainStep_tick (W := fun _ => [.policy, .attach]) (by simp) (by simp) (mainStep_refl _ s) hl) hl

/-- The events of a status value, one tick and the re-arm, run as operations. -/
theorem execAll_service (hl : s.live p = true) (ht : HostTakes p s) (ks : List EvKind) :
    execAll (ks.map (EvKind.instr p) ++ [.tick p, .rearm p]) s = .next (rearm p (tick p (runEvents p ks s))) := by
  have hD : ∀ q, q = p → HostTakes q s := fun _ e => e ▸ ht
  have he : SendsTo (· = p) s (runEvents p ks s) := sends_runEvents (D := (· = p)) rfl (sends_refl _ s) ks
  have hle : (runEvents p ks s).live p = true := (live_runEvents p ks s).trans hl
  have ht' : SendsTo (· = p) s (tick p (runEvents p ks s)) := sends_tick (D := (· = p)) rfl he
  have htick : exec (.tick p) _ = _ := onPort_completes hle (he.duty hD p ht) (sends_tick rfl (sends_refl _ _))
  have hrearm : exec (.rearm p) _ = _ :=
    onPort_completes (live_tick hle) (ht'.duty hD p ht) (sends_rearm rfl (sends_refl _ _))
  rw [execAll_events hl ht, execAll_cons_of_next htick, execAll_cons_of_next hrearm, execAll]

theorem service_eq (p : Port) (s : State) : service p s = rearm p (tick p
    (runEvents p (decodeStatus s.cfg (intStatusReadClear p (diag p s)).1) (intStatusReadClear p (diag p s)).2)) := by
  simp [service]

end

/-- Settles O36: the operations run from the state that the status read leaves. -/
theorem serviceRunsEventsTickRearm : Obligations.ServiceRunsEventsTickRearm := by
  intro s p hl ht
  have hs : SendsTo (· = p) s (intStatusReadClear p (diag p s)).2 :=
    sends_intStatusReadClear (sends_diag (D := (· = p)) rfl (sends_refl _ s)) p
  have hx : exec (.service p) s = .next (service p s) :=
    onPort_completes hl ht (sends_service rfl (sends_refl _ s))
  refine ⟨(intStatusReadClear p (diag p s)).1, (intStatusReadClear p (diag p s)).2, service p s,
    mainKept_trans (mainKept_diag p s) (mainKept_intStatusReadClear p _), hx, ?_, ?_, fun hq => ?_⟩
  · rw [execAll_service (by simpa using hl) (hs.duty (fun _ e => e ▸ ht) p ht), service_eq]
  · rw [service_eq, rearm_shared, if_pos rfl]
  · obtain ⟨hx, hr⟩ := statusRead_of_quiet hq p
    have hb := notes_boundaryKept hr.notes
    refine ⟨hx, hr.quiet, ?_, fun q => ?_, ?_, ?_, fun q e => ?_, fun a h0 h1 h2 => ?_⟩
    · simpa [Adds, statusCleared] using notes_adds hr.notes
    · simp [hb.shared, statusCleared]
    · simp [hb.env, statusCleared]
    · simp [hb.env, statusCleared]
    · simp [hb.env, statusCleared, e]
    · simp [hb.env, statusCleared, readReg_putStatus_other _ _ _ h0 h1 h2]

end Sys2Proof.Machine

/-! ## `EV_MSG_RX` (R176)

`Queued p s t` says of a run of `MAIN` that it takes nothing from the receive queue of port `p`: the queue has grown at its end
by no more than the schedule has delivered. It is proved of every primitive and so of `ON_MESSAGE`; that the bound of the drain
loop is never met follows from it (assumption log 23). -/

namespace Sys2Proof.Machine

/-- From `s` to `t` records have been appended to the receive queue of port `p`, no more than the schedule delivered. -/
def RxGrown (p : Port) (s t : State) : Prop :=
  ∃ rs, (t.env p).rx = (s.env p).rx ++ rs ∧ rs.length + schedWeight t ≤ schedWeight s

/-- A run of `MAIN` that takes no record from the queue of port `p`; a quiet environment stays quiet in it. -/
structure Queued (p : Port) (s t : State) : Prop where
  grown : RxGrown p s t
  quiet : Quiet s → Quiet t

/-- What is in the receive queue of port `p` and what the schedule can still append. -/
def rxLoad (p : Port) (s : State) : Nat := (s.env p).rx.length + schedWeight s

section
variable {p : Port} {s t u : State}

/-! ### The schedule -/

theorem schedWeight_congr (h : t.sched = s.sched) : schedWeight t = schedWeight s := by rw [schedWeight, h, schedWeight]

theorem schedWeight_nil (h : s.sched = []) : schedWeight s = 0 := by rw [schedWeight, h]; rfl

theorem schedWeight_setSched_cons (ms : List EnvMove) (rest : List (List EnvMove)) (s : State) :
    schedWeight (s.setSched (ms :: rest)) = (ms.map moveWeight).sum + schedWeight (s.setSched rest) := rfl

/-- A move appends to the queue at most what it weighs (R65). -/
theorem applyMove_rx (m : EnvMove) (s : State) :
    ∃ rs, ((applyMove m s).env p).rx = (s.env p).rx ++ rs ∧ rs.length ≤ moveWeight m := by
  cases m with
  | rxMsg q r =>
    simp only [applyMove]
    split_ifs
    · by_cases e : p = q
      · exact ⟨[r], by simp [e], le_rfl⟩
      · exact ⟨[], by simp [e], Nat.zero_le _⟩
    · exact ⟨[], by simp, Nat.zero_le _⟩
  | uartByte q b => exact ⟨[], by simp only [applyMove, uartReceive]; split_ifs <;> simp [ringPut], Nat.zero_le _⟩
  | reset c => exact ⟨[], by simp only [applyMove]; split_ifs <;> simp, Nat.zero_le _⟩
  | _ => exact ⟨[], by simp [applyMove, hostActivity, apply_ite EnvPort.rx], Nat.zero_le _⟩

theorem rxGrown_of_eq (he : (t.env p).rx = (s.env p).rx) (hs : t.sched = s.sched) : RxGrown p s t :=
  ⟨[], by simp [he], by simp [schedWeight_congr hs]⟩

theorem rxGrown_trans (h : RxGrown p s t) (h' : RxGrown p t u) : RxGrown p s u := by
  obtain ⟨rs, hr, hw⟩ := h
  obtain ⟨rs', hr', hw'⟩ := h'
  exact ⟨rs ++ rs', by rw [hr', hr, List.append_assoc], by rw [List.length_append]; omega⟩

theorem playMoves_rx (ms : List EnvMove) (s : State) : ∃ rs, ((playMoves ms s).env p).rx = (s.env p).rx ++ rs ∧
    rs.length + schedWeight (playMoves ms s) ≤ (ms.map moveWeight).sum + schedWeight s := by
  induction ms generalizing s with
  | nil => exact ⟨[], by simp [playMoves]⟩
  | cons m ms ih =>
    unfold playMoves
    split_ifs
    · exact ⟨[], by simp, (Nat.zero_add (schedWeight _)).le⟩
    · obtain ⟨rs, hr, hw⟩ := applyMove_rx (p := p) m s
      obtain ⟨rs', hr', hw'⟩ := ih (takeIrqs (applyMove m s))
      obtain ⟨-, henv, hsched, -⟩ := takeIrqs_frame (applyMove m s) p
      rw [schedWeight_congr (hsched.trans (applyMove_frame s m [] p).2.1)] at hw'
      refine ⟨rs ++ rs', by rw [hr', henv, hr, List.append_assoc], ?_⟩
      simp only [List.length_append, List.map_cons, List.sum_cons]
      omega

theorem rxGrown_takeIrqs (p : Port) (s : State) : RxGrown p s (takeIrqs s) := by
  obtain ⟨-, henv, hsched, -⟩ := takeIrqs_frame s p
  exact rxGrown_of_eq (by rw [henv]) hsched

theorem rxGrown_point (p : Port) (s : State) : RxGrown p s (point s) := by
  unfold point
  split_ifs
  · exact rxGrown_of_eq rfl rfl
  · split
    next => exact rxGrown_takeIrqs p s
    next ms rest hs =>
      obtain ⟨rs, hr, hw⟩ := playMoves_rx (p := p) ms (s.setSched rest)
      rw [← schedWeight_setSched_cons, ← hs] at hw
      exact rxGrown_trans ⟨rs, hr, hw⟩ (rxGrown_takeIrqs p _)

theorem rxGrown_sendBytes (p q : Port) (e : Event) (n : Nat) (ms : List (List EnvMove)) (k : Nat) (s : State) :
    RxGrown p s (sendBytes q e n ms k s) := by
  induction ms generalizing k s with
  | nil => unfold sendBytes; split_ifs <;> exact rxGrown_of_eq rfl rfl
  | cons m ms ih =>
    have hp := fun k => rxGrown_trans (rxGrown_point p s) (ih k (point s))
    unfold sendBytes
    split_ifs
    · exact rxGrown_of_eq rfl rfl
    · exact hp _
    · exact rxGrown_of_eq rfl rfl
    · exact hp _

theorem rxGrown_hostSend (p q : Port) (e : Event) (s : State) : RxGrown p s (hostSend q e s) := by
  unfold hostSend
  dsimp only
  split_ifs
  · exact rxGrown_point p s
  · exact rxGrown_trans (rxGrown_point p s) (rxGrown_sendBytes p q e _ _ _ _)

/-! ### Primitives -/

theorem queued_refl (p : Port) (s : State) : Queued p s s := ⟨rxGrown_of_eq rfl rfl, id⟩

theorem queued_trans (h : Queued p s t) (h' : Queued p t u) : Queued p s u :=
  ⟨rxGrown_trans h.grown h'.grown, h'.quiet ∘ h.quiet⟩

/-- A continuation that leaves the queue and the schedule as they are. -/
theorem queued_keep (h : Queued p s t) (he : (u.env p).rx = (t.env p).rx) (hs : u.sched = t.sched)
    (hq : Quiet t → Quiet u) : Queued p s u := queued_trans h ⟨rxGrown_of_eq he hs, hq⟩

theorem queued_point (h : Queued p s t) : Queued p s (point t) :=
  queued_trans h ⟨rxGrown_point p t, fun hq => by rwa [point_of_quiet hq]⟩

theorem queued_setFreeCtr (h : Queued p s t) (x : Nat) : Queued p s (t.setFreeCtr x) :=
  queued_keep h rfl rfl fun hq => quiet_setFreeCtr hq x

theorem queued_updRegs (h : Queued p s t) (q : Port) {f : PortRegs → PortRegs} (hf : ∀ r, (f r).present = r.present)
    (hu : ∀ r, (f r).setUp = r.setUp) : Queued p s (t.updRegs q f) :=
  queued_keep h (by simp) (by simp) fun hq => quiet_updRegs hq q f hf hu

theorem queued_emit (h : Queued p s t) (e : Event) : Queued p s (emit e t) :=
  queued_keep h (by unfold emit effect; split_ifs <;> simp) (by unfold emit effect; split_ifs <;> simp)
    fun hq => quiet_emit hq e

theorem queued_outWritePair (h : Queued p s t) (q : Port) (v w : OutWrite) : Queued p s (outWritePair q v w t) :=
  queued_emit (queued_emit (queued_keep (queued_point h) (by simp) (by simp) fun hq => quiet_updOut hq q _) _) _

theorem queued_hostSend (h : Queued p s t) (q : Port) (e : Event) : Queued p s (hostSend q e t) :=
  queued_trans h ⟨rxGrown_hostSend p q e t, fun hq => notes_quiet (notes_hostSend hq q e) hq⟩

theorem queued_logLine (h : Queued p s t) (q : Port) (l : LogBody) : Queued p s (logLine q l t) := by
  unfold logLine
  split_ifs
  · exact h
  · exact queued_hostSend h q _

theorem queued_diagLines (h : Queued p s t) (q : Port) (ts : List (List Byte)) :
    Queued p s (ts.foldl (fun s x => logLine q (.diag x) s) t) := by
  induction ts generalizing t with
  | nil => exact h
  | cons x ts ih => exact ih (queued_logLine h q _)

theorem queued_diag (h : Queued p s t) (q : Port) : Queued p s (diag q t) := by
  unfold diag
  split_ifs
  · exact queued_diagLines (queued_setFreeCtr h _) q _
  · exact h

theorem queued_raise (h : Queued p s t) (c : Condition) : Queued p s (raise c t) := by
  cases c with
  | transientNoise q n => exact h
  | hardFailure q c => exact queued_emit h _
  | operatorFatal c => exact queued_emit h _
  | absence q _ | protocolViolationMsg q _ | protocolViolationVdm q _ => exact queued_logLine (queued_emit h _) q _

theorem queued_drawRoles (h : Queued p s t) (q : Port) : Queued p s (drawRoles q t) := by
  unfold drawRoles
  split
  · exact h
  · exact queued_setFreeCtr h _

/-- Every transmit operation of R150 to R163 is the optional `DIAG` lines and one `Tx`. -/
theorem queued_diag_tx (h : Queued p s t) (q : Port) (k : TxKind) (c : MsgCode) (o : Objs) :
    Queued p s (tx q k c o (diag q t)) := queued_emit (queued_drawRoles (queued_point (queued_diag h q)) q) _

/-! ### Messages -/

/-- A reply that advances the policy state (R142, R144, R158). -/
theorem queued_reply (h : Queued p s t) (k : TxKind) (c : MsgCode) (o : Objs) (x : PolicyState) :
    Queued p s ((tx p k c o (diag p (diag p t))).updRegs p fun r => { r with ps := x }) :=
  queued_updRegs (queued_diag_tx (queued_diag h p) p k c o) p (fun _ => rfl) fun _ => rfl

theorem queued_vdmDiscoverIdentityAck (h : Queued p s t) (m : Msg) : Queued p s (vdmDiscoverIdentityAck p m t) := by
  have hd := queued_diag h p
  unfold vdmDiscoverIdentityAck
  dsimp only
  split_ifs
  · exact queued_logLine (queued_setFreeCtr hd _) p _
  · exact queued_setFreeCtr hd _
  · exact hd

theorem queued_runVdm (h : Queued p s t) (m : Msg) (v : VdmClass) : Queued p s (runVdm p m v t) := by
  cases v with
  | discoverIdentityReq => exact queued_reply h _ _ _ .ready
  | discoverIdentityAck => exact queued_vdmDiscoverIdentityAck h m
  | other => exact queued_raise (queued_diag h p) (.protocolViolationVdm p m)

theorem queued_runRxOp (h : Queued p s t) (o : RxOp) : Queued p s (runRxOp p o t) := by
  cases o with
  | empty r => exact queued_diag h p
  | sourceCap m | prSwap m | drSwap m => exact queued_diag_tx (queued_diag h p) p _ _ _
  | request m => exact queued_reply h _ _ _ .dfpAccept
  | vendorDefined m => 
    show Queued p s (rxVdm p m t)
    rw [rxVdm_eq]
    exact queued_runVdm (queued_diag h p) m _
  | getSinkCap m => exact queued_reply h _ _ _ .ready
  | other m => exact queued_raise (queued_diag h p) (.protocolViolationMsg p m)

/-- Handling a record takes no other record from the queue (R176). -/
theorem queued_onMessage (h : Queued p s t) (m : RxRecord) : Queued p s (onMessage p m t) :=
  queued_runRxOp (queued_diag h p) _

/-! ### The queue empties (assumption log 17, 23) -/

theorem rxLoad_le (h : Queued p s t) : rxLoad p t ≤ rxLoad p s := by
  obtain ⟨rs, hr, hw⟩ := h.grown
  rw [rxLoad, rxLoad, hr, List.length_append]
  omega

theorem rx_ne_nil (h : Queued p s t) (hs : (s.env p).rx ≠ []) : (t.env p).rx ≠ [] := by
  obtain ⟨rs, hr, -⟩ := h.grown
  simp [hr, hs]

theorem rxLoad_withRx {r : RxRecord} {rs : List RxRecord} (h : (s.env p).rx = r :: rs) :
    rxLoad p (withRx p rs s) < rxLoad p s := by
  have hw : schedWeight (withRx p rs s) = schedWeight s := schedWeight_congr (by simp [withRx])
  rw [rxLoad, rxLoad, hw, h, List.length_cons]
  simp [withRx]

theorem rxIsEmpty_iff : rxIsEmpty s p = true ↔ s.resetReq.isSome = true ∨ (s.env p).rx = [] := by simp [rxIsEmpty]

theorem rxGet_of_reset (h : s.resetReq.isSome = true) : rxGet p s = (none, s) := if_pos h

theorem rxGet_cons (hr : s.resetReq.isSome = false) {r : RxRecord} {rs : List RxRecord} (h : (s.env p).rx = r :: rs) :
    rxGet p s = (some r, withRx p rs s) := by simp [rxGet, hr, h, withRx]

theorem point_of_reset (h : s.resetReq.isSome = true) : point s = s := if_pos h

theorem drainRxOnce_of_empty (h : rxIsEmpty (point s) p = true) : drainRxOnce p s = none := if_pos h

/-- A turn of the drain loop that finds the queue not empty pops the oldest record and handles it, or a device reset has cut
it off in between (R176, R227). -/
theorem drainRxOnce_of_not_empty (h : rxIsEmpty (point s) p = false) :
    (∃ r rs, ((point (point s)).env p).rx = r :: rs ∧
      drainRxOnce p s = some (onMessage p r (withRx p rs (point (point s))))) ∨
    ((point (point s)).resetReq.isSome = true ∧ drainRxOnce p s = some (point (point s))) := by
  have hne : ((point (point s)).env p).rx ≠ [] := by
    refine rx_ne_nil (queued_point (queued_refl p (point s))) fun e => ?_
    rw [rxIsEmpty_iff.mpr (.inr e)] at h
    contradiction
  simp only [drainRxOnce, h]
  cases hr : (point (point s)).resetReq.isSome with
  | true => exact .inr ⟨rfl, by simp [rxGet_of_reset hr]⟩
  | false =>
    obtain ⟨r, rs, hrx⟩ := List.exists_cons_of_ne_nil hne
    exact .inl ⟨r, rs, hrx, by simp [rxGet_cons hr hrx]⟩

theorem drainRx_of_some (n : Nat) (h : drainRxOnce p s = some t) : drainRx p (n + 1) s = drainRx p n t := by
  rw [drainRx, h]

theorem drainRx_of_empty (n : Nat) (h : rxIsEmpty (point s) p = true) : drainRx p (n + 1) s = point s := by
  rw [drainRx, drainRxOnce_of_empty h]

theorem drainRx_of_reset (h : s.resetReq.isSome = true) (n : Nat) : drainRx p n s = s := by
  cases n with
  | zero => rfl
  | succ n =>
    have he : rxIsEmpty (point s) p = true := rxIsEmpty_iff.mpr (.inl (by rwa [point_of_reset h]))
    rw [drainRx_of_empty n he, point_of_reset h]

/-- With a bound above what is queued and can still be delivered, the drain loop ends with the queue empty, or at a device
reset. -/
theorem drainRx_empties (n : Nat) (h : rxLoad p s < n) :
    ((drainRx p n s).env p).rx = [] ∨ (drainRx p n s).resetReq.isSome = true := by
  induction n generalizing s with
  | zero => exact absurd h (Nat.not_lt_zero _)
  | succ n ih =>
    cases he : rxIsEmpty (point s) p with
    | true =>
      rw [drainRx_of_empty n he]
      exact (rxIsEmpty_iff.mp he).symm
    | false =>
      obtain ⟨r, rs, hrx, ho⟩ | ⟨hr, ho⟩ := drainRxOnce_of_not_empty he <;> rw [drainRx_of_some n ho]
      · have h1 := rxLoad_le (queued_onMessage (queued_refl p (withRx p rs (point (point s)))) r)
        have h2 := rxLoad_withRx hrx
        have h3 := rxLoad_le (queued_point (queued_point (queued_refl p s)))
        exact ih (by omega)
      · exact .inr (by rwa [drainRx_of_reset hr])

/-! ### The records of a quiet environment -/

theorem rx_of_quiet (h : Queued p s t) (hq : Quiet s) : (t.env p).rx = (s.env p).rx := by
  obtain ⟨rs, hr, hw⟩ := h.grown
  rw [schedWeight_nil (quiet_sched hq)] at hw
  rw [hr, List.eq_nil_of_length_eq_zero (l := rs) (by omega), List.append_nil]

theorem quiet_withRx (h : Quiet s) (p : Port) (rs : List RxRecord) : Quiet (withRx p rs s) :=
  quiet_updEnv h p _ (fun _ => rfl) (fun _ => rfl) fun _ => rfl

theorem live_onMessage (p : Port) (m : RxRecord) (s : State) : (onMessage p m s).live p = s.live p :=
  ((mainStep_onMessage (W := fun _ => [.policy]) (by simp) (mainStep_refl _ s) m).boundary p).live

theorem exec_onMessage (hl : s.live p = true) (ht : HostTakes p s) (m : RxRecord) :
    exec (.onMessage p m) s = .next (onMessage p m s) :=
  onPort_completes hl ht (sends_onMessage (D := (· = p)) rfl (sends_refl _ s) m)

theorem drainRxOnce_of_quiet (h : Quiet s) {r : RxRecord} {rs : List RxRecord} (hrx : (s.env p).rx = r :: rs) :
    drainRxOnce p s = some (onMessage p r (withRx p rs s)) := by
  have hr : s.resetReq.isSome = false := by simp [quiet_resetReq h]
  have hp : rxIsEmpty s p = false := by simp [rxIsEmpty, hr, hrx]
  simp [drainRxOnce, point_of_quiet h, hp, rxGet_cons hr hrx]

/-- In a quiet environment the drain loop handles the queued records, oldest first, and no other (R176(a)). -/
theorem drains_drainRx (n : Nat) {rs : List RxRecord} (hl : s.live p = true) (hq : Quiet s) (hrx : (s.env p).rx = rs)
    (hn : rs.length < n) : Drains p rs s (drainRx p n s) := by
  induction n generalizing s rs with
  | zero => exact absurd hn (Nat.not_lt_zero _)
  | succ n ih =>
    cases rs with
    | nil =>
      have he : rxIsEmpty (point s) p = true := rxIsEmpty_iff.mpr (.inr (by rwa [point_of_quiet hq]))
      exact (drainRx_of_empty n he).trans (point_of_quiet hq)
    | cons r rs =>
      have hq' := quiet_withRx hq p rs
      have hm := queued_onMessage (queued_refl p (withRx p rs s)) r
      have hl' : (withRx p rs s).live p = true := by simpa [withRx, State.live] using hl
      rw [drainRx_of_some n (drainRxOnce_of_quiet hq hrx)]
      refine ⟨onMessage p r (withRx p rs s), exec_onMessage hl' (hq'.2 p) r, ?_⟩
      exact ih ((live_onMessage p r _).trans hl') (hm.quiet hq') ((rx_of_quiet hm hq').trans (by simp [withRx]))
        (Nat.lt_of_succ_lt_succ hn)

end

/-- Settles O38: the `DIAG` lines, then the drain loop with a bound that is never met. -/
theorem msgRxDrainsQueue : Obligations.MsgRxDrainsQueue := by
  intro s p hl ht
  refine ⟨evMsgRx p s, onPort_completes hl ht (sends_evMsgRx rfl (sends_refl _ s)),
    drainRx_empties _ (Nat.lt_succ_self _), fun hq => ?_⟩
  have hd := quietRun_diag (quietRun_refl hq) p
  obtain ⟨hk, hb, ha⟩ := quietRun_kept hd
  refine ⟨diag p s, hk, hb, ha, drains_drainRx _ (by simpa using hl) hd.quiet (by rw [hb.env]) ?_⟩
  rw [hb.env]
  omega

end Sys2Proof.Machine

/-! # The multiplexer family: host bytes, commands, break calls, the ring and the selection of the next operation -/

/-! ## Runs of an operation of one port

`MainRun p s v t es` reads one run in every environment and in a quiet one at once; the operations of the multiplexer are put
together from one lemma per way such a run goes on. -/

namespace Sys2Proof.Machine

/-- A run of an operation of port `p` has led from `s` to `t`. The fields that `MAIN` owns are those of `v`, and what the run
sends it sends to the host of `p` only; in a quiet environment `t` is `v` in everything else too, but for the free-value
counter and the trace, to which the named events `es` were added. -/
structure MainRun (p : Port) (s v t : State) (es : List Event) : Prop where
  kept : MainKept v t
  sends : SendsTo (· = p) s t
  quiet : Quiet s → QuietRun v t es

section
variable {p : Port} {s t u v w : State} {es fs : List Event}

theorem mainRun_refl (p : Port) (s : State) : MainRun p s s s [] := ⟨mainKept_refl s, sends_refl _ s, quietRun_refl⟩

theorem mainRun_diag (h : MainRun p s v t es) : MainRun p s v (diag p t) es :=
  ⟨mainKept_trans h.kept (mainKept_diag p t), sends_diag rfl h.sends, fun hq => quietRun_diag (h.quiet hq) p⟩

/-- A continuation that changes nothing but the counter and the trace, in a quiet environment. -/
theorem mainRun_note (h : MainRun p s v t es) (hk : MainKept t u) (hs : SendsTo (· = p) t u)
    (hn : Quiet t → Notes t u fs) : MainRun p s v u (es ++ fs) :=
  ⟨mainKept_trans h.kept hk, sends_trans h.sends hs, fun hq => quietRun_note (h.quiet hq) (hn (h.quiet hq).quiet)⟩

/-! ### Writes -/

theorem mainKept_updRegs (h : MainKept v t) (p : Port) (f : PortRegs → PortRegs) :
    MainKept (v.updRegs p f) (t.updRegs p f) := by
  constructor <;> simp [h.cfg, h.regs, h.out, h.wdogArmed, h.halt, h.pos, h.ret]

theorem mainKept_updShared (h : MainKept v t) (p : Port) (f : Shared → Shared) :
    MainKept (v.updShared p f) (t.updShared p f) := by
  constructor <;> simp [h.cfg, h.regs, h.out, h.wdogArmed, h.halt, h.pos, h.ret]

theorem mainKept_outWrite (h : MainKept v t) (p : Port) (x : OutWrite) :
    MainKept (v.updOut p (writeOutput x)) (outWrite p x t) := by
  constructor <;> simp [h.cfg, h.regs, h.out, h.wdogArmed, h.halt, h.pos, h.ret]

theorem mainKept_setWdogArmed (h : MainKept v t) (x : Bool) : MainKept (v.setWdogArmed x) (t.setWdogArmed x) := by
  constructor <;> simp [h.cfg, h.regs, h.out, h.halt, h.pos, h.ret]

theorem mainKept_setHalt (h : MainKept v t) (x : Halt) : MainKept (v.setHalt x) (t.setHalt x) := by
  constructor <;> simp [h.cfg, h.regs, h.out, h.wdogArmed, h.pos, h.ret]

theorem mainKept_disconnect (h : MainKept v t) (p : Port) :
    MainKept ((v.updOut p disconnectedOut).updRegs p disconnectedRegs) (disconnect p t) := by
  obtain ⟨ho, hr, hout⟩ := disconnect_atRest (p := p) h
  constructor
  case regs =>
    intro q
    obtain rfl | e := eq_or_ne q p
    · simp [hr]
    · simp [ho.regs q e, e]
  case out =>
    intro q
    obtain rfl | e := eq_or_ne q p
    · simp [hout]
    · simp [ho.out q e, e]
  all_goals simp [ho.cfg, ho.wdogArmed, ho.halt, ho.pos, ho.ret]

/-- A write of the shared fields that leaves the line mask makes no handler ready. -/
theorem quiet_updShared (h : Quiet s) (p : Port) {f : Shared → Shared} (hf : ∀ x, (f x).irqEn = x.irqEn) :
    Quiet (s.updShared p f) :=
  quiet_congr h (by simp) (by simp)
    (by intro q; simp only [irqReady, State.live, running, shared_updShared]; split_ifs <;> simp [hf])
    (by simp) (by simp) (by simp)

theorem quiet_setWdogArmed (h : Quiet s) (x : Bool) : Quiet (s.setWdogArmed x) :=
  quiet_congr h (by simp) (by simp) (by simp [irqReady, State.live, running]) (by simp) (by simp) (by simp)

/-- A halted block takes no interrupt (R226). -/
theorem quiet_setHalt_fwUpdate (h : Quiet s) : Quiet (s.setHalt .fwUpdate) := by
  obtain ⟨⟨-, -, hready⟩, -⟩ := id h
  exact quiet_congr h (by simp) (by simp) (fun q => by rw [hready q]; simp [irqReady, running]) (by simp) (by simp)
    (by simp)

theorem quietRun_updShared (h : QuietRun v t es) (p : Port) {f : Shared → Shared} (hf : ∀ x, (f x).irqEn = x.irqEn) :
    QuietRun (v.updShared p f) (t.updShared p f) es := ⟨quiet_updShared h.quiet p hf, notes_updShared h.notes p f⟩

theorem mainRun_updRegs (h : MainRun p s v t es) {f : PortRegs → PortRegs} (hf : ∀ r, (f r).present = r.present)
    (hu : ∀ r, (f r).setUp = r.setUp) : MainRun p s (v.updRegs p f) (t.updRegs p f) es :=
  ⟨mainKept_updRegs h.kept p f, sends_updRegs h.sends p f, fun hq => quietRun_updRegs (h.quiet hq) p f hf hu⟩

theorem mainRun_updShared (h : MainRun p s v t es) {f : Shared → Shared} (hf : ∀ x, (f x).irqEn = x.irqEn) :
    MainRun p s (v.updShared p f) (t.updShared p f) es :=
  ⟨mainKept_updShared h.kept p f, sends_updShared h.sends p f, fun hq => quietRun_updShared (h.quiet hq) p hf⟩

theorem mainRun_setWdogArmed (h : MainRun p s v t es) (x : Bool) :
    MainRun p s (v.setWdogArmed x) (t.setWdogArmed x) es := by
  refine ⟨mainKept_setWdogArmed h.kept x, sends_setWdogArmed h.sends x, fun hq => ?_⟩
  obtain ⟨hqt, n, l, rfl, he⟩ := h.quiet hq
  exact ⟨quiet_setWdogArmed hqt x, n, l, rfl, he⟩

theorem mainRun_setHalt (h : MainRun p s v t es) : MainRun p s (v.setHalt .fwUpdate) (t.setHalt .fwUpdate) es := by
  refine ⟨mainKept_setHalt h.kept _, sends_setHalt h.sends _, fun hq => ?_⟩
  obtain ⟨hqt, n, l, rfl, he⟩ := h.quiet hq
  exact ⟨quiet_setHalt_fwUpdate hqt, n, l, rfl, he⟩

/-- What every armed-mode operation starts with (R190, R205). -/
theorem mainRun_diag_disarm (h : MainRun p s v t es) :
    MainRun p s (disarmEscape p v) (diag p (disarmEscape p t)) es :=
  mainRun_diag (mainRun_updRegs h (fun _ => rfl) fun _ => rfl)

/-! ### Primitives -/

theorem mainRun_outWrite (h : MainRun p s v t es) (x : OutWrite) :
    MainRun p s (v.updOut p (writeOutput x)) (outWrite p x t) (es ++ [.out p x]) :=
  ⟨mainKept_outWrite h.kept p x, sends_outWrite h.sends p x, fun hq => quietRun_outWrite (h.quiet hq) p x⟩

theorem mainRun_uartPut (h : MainRun p s v t es) (b : Byte) : MainRun p s v (uartPut p b t) (es ++ [.uart p b]) :=
  mainRun_note h (by constructor <;> simp) (sends_uartPut (sends_refl _ t) p b) fun hq => notes_uartPut hq p b

theorem mainRun_raise_operatorFatal (h : MainRun p s v t es) (c : FatalCommand) :
    MainRun p s v (raise (.operatorFatal c) t) (es ++ [.raised (.operatorFatal c)]) :=
  mainRun_note h (mainKept_raise _ t) (sends_raise (sends_refl _ t) _ nofun) fun hq => notes_raise hq (.operatorFatal c)

theorem mainRun_diag_tx (h : MainRun p s v t es) (k : TxKind) (c : MsgCode) (o : Objs) :
    MainRun p s v (tx p k c o (diag p t)) (es ++ [.tx p k (buildMsg p c o (diag p t))]) :=
  mainRun_note (mainRun_diag h) (by constructor <;> simp) (sends_tx (sends_refl _ _) p k c o) fun hq => notes_tx hq p k c o

/-- The `DISCONNECT` of a run (R129). -/
theorem mainRun_disconnect (h : MainRun p s v t es) :
    MainRun p s ((v.updOut p disconnectedOut).updRegs p disconnectedRegs) (disconnect p t) (es ++ disconnectEvents p) :=
  ⟨mainKept_disconnect h.kept p, sends_disconnect rfl h.sends, fun hq => quietRun_disconnect (h.quiet hq) p⟩

/-! ### Completion -/

/-- An operation that has written, of everything, `P[p]` and `Out[p]`, and before that what `s` and `w` differ in. -/
theorem completes_of_mainRun_from {i : Instr} {f : State → State} (hl : s.live p = true) (ht : HostTakes p s)
    (hi : exec i s = onPort p f s) (h : MainRun p s v (f s) es) (hw : Rewritten p w v) (hb : BoundaryKept s w)
    (htr : w.trace = s.trace) :
    ∃ t, exec i s = .next t ∧ OthersKept p w t ∧ t.out p = v.out p ∧ t.regs p = v.regs p ∧
      (Quiet s → BoundaryKept s t ∧ Adds s t es) := by
  refine ⟨f s, hi.trans (onPort_completes hl ht h.sends), othersKept_keep hw.others h.kept, h.kept.out p, h.kept.regs p,
    fun hq => ?_⟩
  obtain ⟨hbound, hadds⟩ := quietRun_boundary (h.quiet hq) hw
  exact ⟨boundaryKept_trans hb hbound, by rwa [Adds, htr] at hadds⟩

theorem completes_of_mainRun {i : Instr} {f : State → State} (hl : s.live p = true) (ht : HostTakes p s)
    (hi : exec i s = onPort p f s) (h : MainRun p s v (f s) es) (hw : Rewritten p s v) :
    ∃ t, exec i s = .next t ∧ OthersKept p s t ∧ t.out p = v.out p ∧ t.regs p = v.regs p ∧
      (Quiet s → BoundaryKept s t ∧ Adds s t es) :=
  completes_of_mainRun_from hl ht hi h hw (boundaryKept_refl s) rfl

end

end Sys2Proof.Machine

/-! ## The operations of the host bytes (R192 to R205) -/

namespace Sys2Proof.Machine

section
variable {p : Port} {s : State}

theorem rewritten_disarmEscape (p : Port) (s : State) : Rewritten p s (disarmEscape p s) :=
  rewritten_updRegs (rewritten_refl p s) _

theorem mainRun_disarmed (p : Port) (s : State) : MainRun p s (disarmEscape p s) (diag p (disarmEscape p s)) [] :=
  mainRun_diag_disarm (mainRun_refl p s)

theorem mainRun_pass (p : Port) (b : Byte) (s : State) : MainRun p s s (pass p b s) [.uart p b] :=
  mainRun_uartPut (mainRun_diag (mainRun_refl p s)) b

theorem mainRun_escArm (p : Port) (s : State) : MainRun p s (armEscape p s) (escArm p s) [] :=
  mainRun_updRegs (mainRun_diag (mainRun_refl p s)) (fun _ => rfl) fun _ => rfl

theorem mainRun_escLiteral (p : Port) (s : State) :
    MainRun p s (disarmEscape p s) (escLiteral p s) [.uart p 0x1F] := mainRun_uartPut (mainRun_disarmed p s) _

theorem mainRun_cmdSelfReset (p : Port) (s : State) : MainRun p s ((disarmEscape p s).setWdogArmed true)
    (cmdSelfReset p s) [.raised (.operatorFatal .selfReset)] :=
  mainRun_raise_operatorFatal (mainRun_setWdogArmed (mainRun_disarmed p s) true) _

theorem mainRun_cmdFwUpdate (p : Port) (s : State) : MainRun p s ((disarmEscape p s).setHalt .fwUpdate)
    (cmdFwUpdate p s) [.raised (.operatorFatal .fwUpdate)] :=
  mainRun_raise_operatorFatal (mainRun_setHalt (mainRun_disarmed p s)) _

theorem mainRun_cmdForceDisconnect (p : Port) (s : State) :
    MainRun p s (((setPending p (disarmEscape p s)).updOut p disconnectedOut).updRegs p disconnectedRegs)
      (cmdForceDisconnect p s) (disconnectEvents p) := by
  have h : MainRun p s (setPending p (disarmEscape p s)) (setPending p (diag p (disarmEscape p s))) [] :=
    mainRun_updShared (mainRun_disarmed p s) fun _ => rfl
  exact mainRun_disconnect h

theorem mainRun_cmdToggleVerbose (p : Port) (s : State) :
    MainRun p s (toggleVerbose p (disarmEscape p s)) (cmdToggleVerbose p s) [] :=
  mainRun_diag (mainRun_updRegs (mainRun_disarmed p s) (fun _ => rfl) fun _ => rfl)

/-- The help line lists the ports as the operation finds them, and is lost on a disconnected channel (R67, R203). -/
theorem mainRun_cmdHelp (p : Port) (s : State) : MainRun p s (disarmEscape p s) (cmdHelp p s)
    (if (s.env p).connected then [.log p (.help (helpEntries s))] else []) := by
  have h := mainRun_disarmed p s
  have hhelp : helpEntries (diag p (disarmEscape p s)) = helpEntries s := by
    refine List.map_congr_left fun q _ => ?_
    rw [h.kept.regs]
    by_cases e : q = p <;> simp [disarmEscape, e]
  refine ⟨mainKept_trans h.kept (by constructor <;> simp [cmdHelp]), sends_cmdHelp rfl (sends_refl _ s), fun hq => ?_⟩
  have hr := h.quiet hq
  have hn := notes_logLine_always hr.quiet p (.help (helpEntries s)) rfl
  rw [quietRun_env hr, disarmEscape, env_updRegs] at hn
  rw [cmdHelp, hhelp]
  exact quietRun_note hr hn

/-! ### The commands that transmit -/

/-- What a command that transmits hands to the transceiver (R195, R200 to R202). -/
theorem cmdRebootTarget_eq (p : Port) (s : State) : cmdRebootTarget p s = tx p .vdmReboot .vendorDefined
    (actionObjs s.cfg.actions .reboot) (diag p (diag p (disarmEscape p s))) := by
  simp [cmdRebootTarget, txVdmReboot, txAction, disarmEscape]

theorem cmdDebugProbe_eq (p : Port) (s : State) : cmdDebugProbe p s = tx p .probe s.cfg.probeCode s.cfg.probeObjs
    (diag p (diag p (disarmEscape p s))) := by
  simp [cmdDebugProbe, txProbe, disarmEscape]

/-- The route `r` selected on port `p` after the disarming (R201, R202). -/
def routeSelected (p : Port) (r : Route) (s : State) : State := s.updRegs p fun x => { x with route := r }

theorem selectRoute_eq (p : Port) (r : Route) (s : State) : selectRoute p r s = tx p .vdmPdReset .vendorDefined
    (actionObjs s.cfg.actions .pdReset) (diag p (routeSelected p r (diag p (disarmEscape p s)))) := by
  simp [selectRoute, txVdmPdReset, txAction, disarmEscape, routeSelected]

theorem mainRun_routeSelected (p : Port) (r : Route) (s : State) :
    MainRun p s (routeSelected p r (disarmEscape p s)) (routeSelected p r (diag p (disarmEscape p s))) [] :=
  mainRun_updRegs (mainRun_disarmed p s) (fun _ => rfl) fun _ => rfl

end

section
variable {p : Port} {s v u : State}

/-- An operation that writes `P[p]` and then transmits. -/
theorem transmitsAndSets_of_mainRun {i : Instr} {f : State → State} {k : TxKind} {c : MsgCode} {o : Objs}
    (hl : s.live p = true) (ht : HostTakes p s) (hi : exec i s = onPort p f s) (hf : f s = tx p k c o (diag p u))
    (h : MainRun p s v u []) (hw : Rewritten p s v) (hout : v.out p = s.out p) :
    TransmitsAndSets i p s (v.regs p) k c o := by
  have hrun : MainRun p s v (f s) [.tx p k (buildMsg p c o (diag p u))] := hf ▸ mainRun_diag_tx h k c o
  have hm : TxMessage s p c o (buildMsg p c o (diag p u)) :=
    txMessage_congr (by simp [h.kept.cfg, hw.others.cfg]) (by simp [h.kept.out, hout]) (txMessage_buildMsg _ p c o)
  obtain ⟨t, hx, hothers, hout', hregs, hquiet⟩ := completes_of_mainRun hl ht hi hrun hw
  refine ⟨t, hx, hothers, hregs, hout'.trans hout, fun hq => ?_⟩
  obtain ⟨hb, ha⟩ := hquiet hq
  exact ⟨hb, _, hm, ha⟩

end

/-- Settles O41: one quiet run per operation. -/
theorem bytesReachUart : Obligations.BytesReachUart := by
  intro s p b hl ht
  have hpass := mainRun_pass p b s
  refine ⟨fun hb => congrArg (ByteOp.instr p) (if_neg hb), rfl,
    ⟨pass p b s, onPort_completes hl ht hpass.sends, hpass.kept, fun hq => ?_⟩, ?_⟩
  · exact quietRun_boundary (hpass.quiet hq) (rewritten_refl p s)
  · have h := completes_of_mainRun (i := .escLiteral p) hl ht rfl (mainRun_escLiteral p s) (rewritten_disarmEscape p s)
    simpa [disarmEscape] using h

/-! ### The armed table (R93) -/

/-- The ten bytes that the armed table lists before its default (R93). -/
def armedBytes : List Byte := [0x1F, 0x21, 0x12, 0x1E, 0x18, 0x04, 0x0D, 0x31, 0x32, 0x3F]

theorem decodeArmed_of_not_mem {b : Byte} (h : b ∉ armedBytes) : decodeArmed b = .cmdDrop b := by
  simp only [armedBytes, List.mem_cons, not_or] at h
  simp only [decodeArmed, h, if_false]

theorem decodeArmed_eq_cmdDrop_iff {b : Byte} : decodeArmed b = .cmdDrop b ↔ b ∉ armedBytes := by
  have listed : ∀ b ∈ armedBytes, decodeArmed b ≠ .cmdDrop b := by decide
  exact ⟨fun e h => listed b h e, decodeArmed_of_not_mem⟩

theorem instr_eq_cmdDrop_iff {o : ByteOp} {p : Port} {b : Byte} : o.instr p = .cmdDrop p b ↔ o = .cmdDrop b := by
  cases o <;> simp [ByteOp.instr]

/-- Settles O42: the armed table has ten rows before its default. -/
theorem escapeArmsAndDrops : Obligations.EscapeArmsAndDrops := by
  intro s p b hl ht
  refine ⟨rfl, instr_eq_cmdDrop_iff.trans decodeArmed_eq_cmdDrop_iff, ?_, ?_⟩
  · have h := completes_of_mainRun (i := .escArm p) hl ht rfl (mainRun_escArm p s)
      (rewritten_updRegs (rewritten_refl p s) _)
    simpa [armEscape] using h
  · have h := completes_of_mainRun (i := .cmdDrop p b) (f := cmdDrop p b) hl ht rfl (mainRun_disarmed p s)
      (rewritten_disarmEscape p s)
    simpa [disarmEscape] using h

/-- Settles O43: the disarming, the route of the two route commands, then one transmission. -/
theorem commandsThatTransmit : Obligations.CommandsThatTransmit := by
  intro s p hl ht
  have hroute : ∀ r, Rewritten p s (routeSelected p r (disarmEscape p s)) := fun r =>
    rewritten_updRegs (rewritten_disarmEscape p s) _
  refine ⟨?reboot, ?probe, ?route1, ?route2⟩
  case reboot =>
    have h := transmitsAndSets_of_mainRun (i := .cmdRebootTarget p) hl ht rfl (cmdRebootTarget_eq p s)
      (mainRun_disarmed p s) (rewritten_disarmEscape p s) (by simp [disarmEscape])
    simpa [disarmEscape] using h
  case probe =>
    have h := transmitsAndSets_of_mainRun (i := .cmdDebugProbe p) hl ht rfl (cmdDebugProbe_eq p s)
      (mainRun_disarmed p s) (rewritten_disarmEscape p s) (by simp [disarmEscape])
    simpa [disarmEscape] using h
  case route1 =>
    have h := transmitsAndSets_of_mainRun (i := .cmdRoute1 p) hl ht rfl (selectRoute_eq p s.cfg.routeOfKey1 s)
      (mainRun_routeSelected p _ s) (hroute _) (by simp [routeSelected, disarmEscape])
    simpa [routeSelected, disarmEscape] using h
  case route2 =>
    have h := transmitsAndSets_of_mainRun (i := .cmdRoute2 p) hl ht rfl (selectRoute_eq p s.cfg.routeOfKey2 s)
      (mainRun_routeSelected p _ s) (hroute _) (by simp [routeSelected, disarmEscape])
    simpa [routeSelected, disarmEscape] using h

/-- Settles O44: each command is a disarming, the write of one global, and the record of its condition. -/
theorem operatorFatalCommands : Obligations.OperatorFatalCommands := by
  intro s p hl ht
  refine ⟨?selfReset, ?fwUpdate⟩
  case selfReset =>
    have e : disarmEscape p (s.setWdogArmed true) = (disarmEscape p s).setWdogArmed true := by cases p <;> rfl
    have hw : Rewritten p (s.setWdogArmed true) ((disarmEscape p s).setWdogArmed true) := e ▸ rewritten_disarmEscape p _
    have h := completes_of_mainRun_from (i := .cmdSelfReset p) hl ht rfl (mainRun_cmdSelfReset p s) hw
      (by constructor <;> simp) rfl
    simpa [disarmEscape] using h
  case fwUpdate =>
    have e : disarmEscape p (s.setHalt .fwUpdate) = (disarmEscape p s).setHalt .fwUpdate := by cases p <;> rfl
    have hw : Rewritten p (s.setHalt .fwUpdate) ((disarmEscape p s).setHalt .fwUpdate) := e ▸ rewritten_disarmEscape p _
    have h := completes_of_mainRun_from (i := .cmdFwUpdate p) hl ht rfl (mainRun_cmdFwUpdate p s) hw
      (by constructor <;> simp) rfl
    simpa [disarmEscape] using h

/-- Settles O46: the disarming and the toggle, between `DIAG` lines. -/
theorem toggleVerboseInverts : Obligations.ToggleVerboseInverts := by
  intro s p hl ht
  refine ⟨rfl, ?_⟩
  have h := completes_of_mainRun (i := .cmdToggleVerbose p) hl ht rfl (mainRun_cmdToggleVerbose p s)
    (rewritten_updRegs (rewritten_disarmEscape p s) _)
  simpa [toggleVerbose, disarmEscape] using h

/-- Settles O47: the disarming, then one line of class `ALWAYS`. -/
theorem helpListsPorts : Obligations.HelpListsPorts := by
  intro s p hl ht
  have h := completes_of_mainRun (i := .cmdHelp p) hl ht rfl (mainRun_cmdHelp p s) (rewritten_disarmEscape p s)
  simpa [disarmEscape, helpEntries, Port.all] using h

/-- Settles O48: both calls are one output write, whose hint nothing reads (D40). -/
theorem breakCallsDriveLine : Obligations.BreakCallsDriveLine := by
  intro s p hint hl ht
  have run : ∀ x, MainRun p s (s.updOut p (writeOutput (.uartBreak x))) (outWrite p (.uartBreak x) (diag p s))
      [.out p (.uartBreak x)] := fun x => mainRun_outWrite (mainRun_diag (mainRun_refl p s)) (.uartBreak x)
  have hw : ∀ f, Rewritten p s (s.updOut p f) := rewritten_updOut (rewritten_refl p s)
  refine ⟨?_, ?_⟩
  · obtain ⟨t, hx, ho, hout, hr, hq⟩ := completes_of_mainRun (i := .breakBegin p hint) (f := breakBegin p hint) hl ht
      rfl (run true) (hw _)
    exact ⟨t, hx, ho, by simpa using hr, by simpa [writeOutput] using hout, hq⟩
  · obtain ⟨t, hx, ho, hout, hr, hq⟩ := completes_of_mainRun (i := .breakEnd p hint) (f := breakEnd p hint) hl ht
      rfl (run false) (hw _)
    exact ⟨t, hx, ho, by simpa using hr, by simpa [writeOutput] using hout, hq⟩

end Sys2Proof.Machine

/-! ## The forced disconnect (R198) -/

namespace Sys2Proof.Machine

section
variable {p : Port} {s t v : State} {es : List Event}

/-- What a quiet run leaves whose writes, those of the shared fields of port `p` among them, have led to `v`. -/
theorem quietRun_boundaryBut (h : QuietRun v t es) (hv : BoundaryKeptBut p s v) (htr : v.trace = s.trace) :
    BoundaryKeptBut p s t ∧ t.shared p = v.shared p ∧ Adds s t es := by
  have hb := notes_boundaryKept h.notes
  have ha := notes_adds h.notes
  exact ⟨boundaryKeptBut_keep hv hb, hb.shared p, by rwa [Adds, htr] at ha⟩

/-- Where `CMD_FORCE_DISCONNECT` runs the disconnect, and where that leads, but for the trace (R129, R198). -/
def forcedState (p : Port) (s : State) : State :=
  ((setPending p (disarmEscape p s)).updOut p disconnectedOut).updRegs p disconnectedRegs

theorem boundaryKeptBut_forcedState (p : Port) (s : State) : BoundaryKeptBut p s (forcedState p s) := by
  constructor <;> simp +contextual [forcedState, setPending, disarmEscape]

theorem othersKept_forcedState (p : Port) (s : State) : OthersKept p s (forcedState p s) := by
  constructor <;> simp +contextual [forcedState, setPending, disarmEscape]

/-- The flag that the command sets is not cleared before it ends, in any environment (R77, R198). -/
theorem pending_cmdForceDisconnect (p : Port) (s : State) : ((cmdForceDisconnect p s).shared p).pending = true :=
  pending_acts (L := []) nofun (acts_disconnect (acts_refl [] p (setPending p (diag p (disarmEscape p s)))) p)
    (by simp [setPending])

end

/-- Settles O45: the disarming, the flag, then `DISCONNECT`. -/
theorem forceDisconnectMarksPending : Obligations.ForceDisconnectMarksPending := by
  intro s p hl ht
  have h : MainRun p s (forcedState p s) (cmdForceDisconnect p s) (disconnectEvents p) := mainRun_cmdForceDisconnect p s
  refine ⟨cmdForceDisconnect p s, onPort_completes hl ht h.sends, othersKept_keep (othersKept_forcedState p s) h.kept,
    pending_cmdForceDisconnect p s, ?_, ?_, fun hq => ?_⟩
  · simp [h.kept.regs, forcedState, setPending, disarmEscape, disconnectedRegs]
  · simp [h.kept.out, forcedState, setPending, disarmEscape]
  · obtain ⟨hb, hs, ha⟩ := quietRun_boundaryBut (h.quiet hq) (boundaryKeptBut_forcedState p s)
      (by simp [forcedState, setPending, disarmEscape])
    exact ⟨hb, by simpa [forcedState, setPending, disarmEscape] using hs, ha⟩

end Sys2Proof.Machine

/-! ## Bytes into the ring and out of it (R208 to R210) -/

namespace Sys2Proof.Machine

section
variable {p : Port} {s t v : State} {es : List Event}

/-- `s` with the ring `x` in port `p`. -/
def withRing (p : Port) (x : Ring) (s : State) : State := s.updShared p fun h => { h with ring := x }

theorem mainKept_withRing (p : Port) (x : Ring) (s : State) : MainKept s (withRing p x s) := by
  constructor <;> simp [withRing]

theorem boundaryKeptBut_withRing (p : Port) (x : Ring) (s : State) : BoundaryKeptBut p s (withRing p x s) := by
  constructor <;> simp +contextual [withRing]

@[simp] theorem withRing_trace (p : Port) (x : Ring) (s : State) : (withRing p x s).trace = s.trace := by simp [withRing]

@[simp] theorem withRing_env (p q : Port) (x : Ring) (s : State) : (withRing p x s).env q = s.env q := by simp [withRing]

@[simp] theorem withRing_shared (p : Port) (x : Ring) (s : State) :
    (withRing p x s).shared p = { s.shared p with ring := x } := by simp [withRing]

theorem withRing_withRing (p : Port) (x y : Ring) (s : State) : withRing p y (withRing p x s) = withRing p y s := by
  cases p <;> rfl

theorem withRing_self (p : Port) (s : State) : withRing p (s.shared p).ring s = s := by cases p <;> rfl

theorem ringPut_eq (p : Port) (b : Byte) (s : State) :
    ringPut p b s = withRing p (ringPush (ringSlots s.cfg) b (s.shared p).ring) s := by cases p <;> rfl

theorem ringGet_eq (p : Port) (s : State) : ringGet p s = ((ringPop (ringSlots s.cfg) (s.shared p).ring).1,
    withRing p (ringPop (ringSlots s.cfg) (s.shared p).ring).2 s) := rfl

theorem uartReceive_of_live (hr : running s = true) (hl : s.live p = true) (b : Byte) :
    uartReceive p b s = (ringPut p b s).setWake true := by simp [uartReceive, hr, hl]

theorem quietRun_withRing (h : QuietRun v t es) (p : Port) (x : Ring) :
    QuietRun (withRing p x v) (withRing p x t) es := quietRun_updShared h p fun _ => rfl

theorem quietRun_setRet (h : QuietRun v t es) (x : Option Byte) : QuietRun (v.setRet x) (t.setRet x) es := by
  obtain ⟨hqt, n, l, rfl, he⟩ := h
  exact ⟨quiet_congr hqt rfl rfl (fun _ => rfl) rfl (fun _ => rfl) fun _ => rfl, n, l, rfl, he⟩

end

/-- Settles O50: the interrupt is the put and the wake latch (R222(d)). -/
theorem uartByteGoesIntoRing : Obligations.UartByteGoesIntoRing := by
  intro s p b hl
  have hk := mainKept_withRing p (ringPush (ringSlots s.cfg) b (s.shared p).ring) s
  refine ⟨⟨ringPut p b s, onPortIrq_live hl _, ?_⟩, fun hr => ⟨(ringPut p b s).setWake true, ?_, ?_⟩⟩
  · rw [ringPut_eq]
    exact ⟨hk, boundaryKeptBut_withRing p _ s, withRing_trace p _ s, withRing_shared p _ s⟩
  · exact congrArg Host.Outcome.next (uartReceive_of_live hr hl b)
  · rw [ringPut_eq]
    refine ⟨mainKept_trans hk (by constructor <;> simp), withRing_trace p _ s, rfl, ?_, withRing_shared p _ s⟩
    constructor <;> simp +contextual [withRing]

/-- Settles O51: one interrupt-disable section, then the `DIAG` lines. -/
theorem ringGetReturnsOldest : Obligations.RingGetReturnsOldest := by
  intro s p hl ht
  refine ⟨ringGetOp p s, onPort_completes hl ht (sends_ringGetOp rfl (sends_refl _ s)), ?_, fun hq => ?_⟩
  · exact mainKept_trans (by constructor <;> simp [ringGet_eq, withRing]) (mainKept_diag p _)
  · have h := quietRun_diag (quietRun_setRet (quietRun_withRing (quietRun_refl hq) p
      (ringPop (ringSlots s.cfg) (s.shared p).ring).2) (ringPop (ringSlots s.cfg) (s.shared p).ring).1) p
    obtain ⟨hb, hs, ha⟩ := quietRun_boundaryBut (p := p) (s := s) h (by constructor <;> simp +contextual [withRing])
      (withRing_trace p _ s)
    exact ⟨hb, ha, hs.trans (withRing_shared p _ s)⟩

end Sys2Proof.Machine

/-! ## Draining the ring (R211) -/

namespace Sys2Proof.Machine

/-! ### On the ring alone -/

/-- At most `n` gets, one after the other, until the ring is empty: the bytes, and the ring left (R210, R211). -/
def ringDrain (S : Nat) : Nat → Ring → List Byte × Ring
  | 0, x => ([], x)
  | n + 1, x =>
    match ringPop S x with
    | (none, y) => ([], y)
    | (some b, y) => (b :: (ringDrain S n y).1, (ringDrain S n y).2)

section
variable {S : Nat} {x y : Ring} {b : Byte}

theorem ringDrain_of_none (n : Nat) (h : ringPop S x = (none, y)) : ringDrain S (n + 1) x = ([], y) := by
  rw [ringDrain, h]

theorem ringDrain_of_some (n : Nat) (h : ringPop S x = (some b, y)) :
    ringDrain S (n + 1) x = (b :: (ringDrain S n y).1, (ringDrain S n y).2) := by
  rw [ringDrain, h]

/-- A bound above the number of bytes held takes them all, and the cursors meet. -/
theorem ringDrain_of_wf (n : Nat) (h : x.wf S = true) (hn : ringCount S x < n) :
    ringDrain S n x = (ringContents S x, { x with r := x.w }) := by
  induction n generalizing x with
  | zero => exact absurd hn (Nat.not_lt_zero _)
  | succ n ih =>
    by_cases e : x.r = x.w
    · have hx : { x with r := x.w } = x := by cases x; cases e; rfl
      rw [ringDrain_of_none n (ringPop_of_eq e), (ringContents_eq_nil h).2 e, hx]
    · have hc := ringCount_pop h e
      have hpop : ringPop S x = (some (x.buf.getD x.r 0), (ringPop S x).2) := Prod.ext (ringPop_fst e) rfl
      rw [ringDrain_of_some n hpop, ih (wf_ringPop h) (by omega), ringContents_pop h e]
      simp [ringPop, e]

end

/-! ### In a quiet environment -/

section
variable {p : Port} {s t v : State} {es : List Event}

/-- What the bytes `bs`, sent to the host of port `p` in a quiet environment, add to the trace (R67). -/
def sentBytes (s : State) (p : Port) (bs : List Byte) : List Event :=
  if (s.env p).connected then bs.map (Event.host p) else []

theorem quietRun_hostSend_host (h : QuietRun v t es) (p : Port) (b : Byte) :
    QuietRun v (hostSend p (.host p b) t) (es ++ sentBytes v p [b]) := by
  have hn := notes_hostSend h.quiet p (.host p b)
  rw [quietRun_env h] at hn
  exact quietRun_note h hn

theorem drainRing_of_none (n : Nat) {y : Ring}
    (h : ringPop (ringSlots (point s).cfg) ((point s).shared p).ring = (none, y)) :
    drainRing p (n + 1) s = diag p (withRing p y (point s)) := by
  rw [drainRing, ringGet_eq, h]

theorem drainRing_of_some (n : Nat) {b : Byte} {y : Ring}
    (h : ringPop (ringSlots (point s).cfg) ((point s).shared p).ring = (some b, y)) :
    drainRing p (n + 1) s = drainRing p n (hostSend p (.host p b) (diag p (withRing p y (point s)))) := by
  rw [drainRing, ringGet_eq, h]

/-- The drain loop is `ringDrain` on the ring, each byte sent before the next is taken (R211). -/
theorem quietRun_drainRing (n : Nat) (h : QuietRun v t es) :
    QuietRun (withRing p (ringDrain (ringSlots v.cfg) n (v.shared p).ring).2 v) (drainRing p n t)
      (es ++ sentBytes v p (ringDrain (ringSlots v.cfg) n (v.shared p).ring).1) := by
  induction n generalizing v t es with
  | zero => simpa [ringDrain, withRing_self, sentBytes, drainRing] using h
  | succ n ih =>
    have hring : ringPop (ringSlots (point t).cfg) ((point t).shared p).ring =
        ringPop (ringSlots v.cfg) (v.shared p).ring := by
      rw [point_of_quiet h.quiet, quietRun_cfg h, (notes_boundaryKept h.notes).shared]
    have hget : ∀ y, QuietRun (withRing p y v) (diag p (withRing p y (point t))) es := fun y =>
      quietRun_diag (quietRun_withRing (quietRun_point h) p y) p
    obtain ⟨o, y, e⟩ : ∃ o y, ringPop (ringSlots v.cfg) (v.shared p).ring = (o, y) := ⟨_, _, rfl⟩
    cases o with
    | none =>
      rw [drainRing_of_none n (hring.trans e), ringDrain_of_none n e]
      simpa [sentBytes] using hget y
    | some b =>
      rw [drainRing_of_some n (hring.trans e), ringDrain_of_some n e]
      have hrest := ih (quietRun_hostSend_host (hget y) p b)
      have hcfg : (withRing p y v).cfg = v.cfg := (mainKept_withRing p y v).cfg
      rw [withRing_withRing, withRing_shared, hcfg] at hrest
      have hsent : ∀ bs, es ++ sentBytes (withRing p y v) p [b] ++ sentBytes (withRing p y v) p bs =
          es ++ sentBytes v p (b :: bs) := fun bs => by
        unfold sentBytes
        rw [withRing_env]
        split_ifs <;> simp
      exact hsent _ ▸ hrest

/-- The bytes that `DRAIN_TO_HOST` takes in a quiet environment, and the ring it leaves. -/
def drained (s : State) (p : Port) : List Byte × Ring :=
  ringDrain (ringSlots s.cfg) (ringSlots s.cfg + 1) (s.shared p).ring

theorem drained_of_wf (h : (s.shared p).ring.wf (ringSlots s.cfg) = true) : drained s p =
    (ringContents (ringSlots s.cfg) (s.shared p).ring, { (s.shared p).ring with r := (s.shared p).ring.w }) :=
  ringDrain_of_wf _ h (Nat.lt_succ_of_lt (ringCount_lt h))

theorem quietRun_drainToHost (h : Quiet s) (p : Port) :
    QuietRun (withRing p (drained s p).2 s) (drainToHost p s) (sentBytes s p (drained s p).1) := by
  have hd := quietRun_diag (quietRun_refl h) p
  have hr := quietRun_drainRing (p := p) (ringSlots s.cfg + 1) hd
  simpa [drained, drainToHost, schedWeight_nil (quiet_sched hd.quiet)] using hr

end

/-! ### With a host that never takes a byte -/

/-- The host of port `p` is connected and takes nothing, and nothing is scheduled that could change it (R67, R226(c)). -/
structure Deaf (p : Port) (s : State) : Prop where
  sched : s.sched = []
  resetReq : s.resetReq = none
  connected : (s.env p).connected = true
  takes : (s.env p).takes = false

/-- While the host of port `p` takes nothing, a run from `s` has led to `t` with the ring of `p` as it was; a send on the way,
if there was one, is where `MAIN` is stuck. -/
structure DeafRun (p : Port) (s t : State) : Prop where
  deaf : Deaf p t
  ring : (t.shared p).ring = (s.shared p).ring
  stalled : t.stalled = s.stalled ∨ t.stalled = s.stalled.or (some p)

section
variable {p : Port} {s t u : State}

theorem deaf_congr (h : Deaf p s) (hs : t.sched = s.sched) (hr : t.resetReq = s.resetReq) (he : t.env p = s.env p) :
    Deaf p t := ⟨hs.trans h.sched, hr.trans h.resetReq, he ▸ h.connected, he ▸ h.takes⟩

theorem deafRun_refl (h : Deaf p s) : DeafRun p s s := ⟨h, rfl, .inl rfl⟩

theorem deafRun_trans (h : DeafRun p s t) (h' : DeafRun p t u) : DeafRun p s u := by
  refine ⟨h'.deaf, h'.ring.trans h.ring, ?_⟩
  obtain e | e := h.stalled <;> obtain e' | e' := h'.stalled <;> simp [e', e]

/-- A continuation that is no send. -/
theorem deafRun_keep (h : DeafRun p s t) (hs : u.sched = t.sched) (hr : u.resetReq = t.resetReq) (he : u.env p = t.env p)
    (hring : (u.shared p).ring = (t.shared p).ring) (hst : u.stalled = t.stalled) : DeafRun p s u :=
  deafRun_trans h ⟨deaf_congr h.deaf hs hr he, hring, .inl hst⟩

theorem takeChipIrq_ring (q : Port) (s : State) : ((takeChipIrq q s).shared p).ring = (s.shared p).ring := by
  simp only [takeChipIrq, maskLine, setPending, shared_setWake, shared_updShared]
  split_ifs <;> rfl

theorem chipIrq_ring (s : State) : ((chipIrq s).shared p).ring = (s.shared p).ring := by
  unfold chipIrq
  split_ifs <;> simp [takeChipIrq_ring]

theorem deafRun_point (h : DeafRun p s t) : DeafRun p s (point t) := by
  obtain e | e := point_of_sched_nil h.deaf.sched <;> rw [e]
  · exact h
  obtain ⟨hst, henv, hsched, hreset⟩ := takeIrqs_frame t p
  exact deafRun_keep h hsched hreset henv ((chipIrq_ring _).trans (chipIrq_ring t)) hst

/-- A send to such a host is stuck (R67, R226(c)). -/
theorem hostSend_of_deaf (h : Deaf p s) (e : Event) : hostSend p e s = stall p (point s) := by
  have hd := (deafRun_point (deafRun_refl h)).deaf
  simp [hostSend, hd.sched, hd.resetReq, sendBytes, hd.connected, hd.takes]

theorem hostSend_stalled_of_deaf (h : Deaf p s) (e : Event) : (hostSend p e s).stalled = s.stalled.or (some p) := by
  rw [hostSend_of_deaf h]
  obtain e | e := (deafRun_point (deafRun_refl h)).stalled <;> simp [stall, e]

theorem deafRun_hostSend (h : DeafRun p s t) (e : Event) : DeafRun p s (hostSend p e t) := by
  have hd := deafRun_point (deafRun_refl h.deaf)
  refine deafRun_trans h ⟨?_, ?_, .inr (hostSend_stalled_of_deaf h.deaf e)⟩
  · rw [hostSend_of_deaf h.deaf]
    exact deaf_congr hd.deaf rfl rfl rfl
  · rw [hostSend_of_deaf h.deaf]
    exact hd.ring

theorem deafRun_logLine (h : DeafRun p s t) (l : LogBody) : DeafRun p s (logLine p l t) := by
  unfold logLine
  split_ifs
  · exact h
  · exact deafRun_hostSend h _

theorem deafRun_diagLines (h : DeafRun p s t) (ts : List (List Byte)) :
    DeafRun p s (ts.foldl (fun s x => logLine p (.diag x) s) t) := by
  induction ts generalizing t with
  | nil => exact h
  | cons x ts ih => exact ih (deafRun_logLine h _)

theorem deafRun_diag (h : DeafRun p s t) : DeafRun p s (diag p t) := by
  unfold diag
  split_ifs
  · have hc : DeafRun p s (t.setFreeCtr (t.freeCtr + 1)) := deafRun_keep h rfl rfl rfl rfl rfl
    exact deafRun_diagLines hc _
  · exact h

theorem deaf_withRing (h : Deaf p s) (y : Ring) : Deaf p (withRing p y s) :=
  deaf_congr h (by simp [withRing]) (by simp [withRing]) (by simp)

/-- One byte taken from the ring and the `DIAG` lines after it. -/
theorem deafRun_diag_get (h : Deaf p s) (y : Ring) :
    Deaf p (diag p (withRing p y (point s))) ∧ ((diag p (withRing p y (point s))).stalled = s.stalled ∨
      (diag p (withRing p y (point s))).stalled = s.stalled.or (some p)) := by
  have hp := deafRun_point (deafRun_refl h)
  have hd := deafRun_diag (deafRun_refl (deaf_withRing hp.deaf y))
  have e : (withRing p y (point s)).stalled = (point s).stalled := by simp [withRing]
  have hst := hd.stalled
  rw [e] at hst
  refine ⟨hd.deaf, ?_⟩
  obtain e1 | e1 := hp.stalled <;> obtain e2 | e2 := hst <;> simp [e1, e2]

/-- `MAIN`, once stuck on port `p`, stays so through the rest of the drain. -/
theorem drainRing_stalled (n : Nat) (h : Deaf p s) (hs : s.stalled = some p) : (drainRing p n s).stalled = some p := by
  induction n generalizing s with
  | zero => exact hs
  | succ n ih =>
    obtain ⟨o, y, e⟩ : ∃ o y, ringPop (ringSlots (point s).cfg) ((point s).shared p).ring = (o, y) := ⟨_, _, rfl⟩
    obtain ⟨hd, hst⟩ := deafRun_diag_get h y
    have hst : (diag p (withRing p y (point s))).stalled = some p := by simpa [hs] using hst
    cases o with
    | none => rwa [drainRing_of_none n e]
    | some b =>
      rw [drainRing_of_some n e]
      refine ih (deafRun_hostSend (deafRun_refl hd) _).deaf ?_
      rw [hostSend_stalled_of_deaf hd, hst, Option.some_or]

/-- A drain of a ring that holds a byte is stuck on the first one, or before it in a `DIAG` line (R226(c)). -/
theorem drainToHost_stalled (h : Deaf p s) (hst : s.stalled = none) (hring : (s.shared p).ring.r ≠ (s.shared p).ring.w) :
    (drainToHost p s).stalled = some p := by
  have hd := deafRun_diag (deafRun_refl h)
  have hp := deafRun_point hd
  have e : ringPop (ringSlots (point (diag p s)).cfg) ((point (diag p s)).shared p).ring =
      (some ((s.shared p).ring.buf.getD (s.shared p).ring.r 0), (ringPop (ringSlots s.cfg) (s.shared p).ring).2) := by
    rw [hp.ring, point_cfg, diag_cfg]
    exact Prod.ext (ringPop_fst hring) rfl
  obtain ⟨hg, hgst⟩ := deafRun_diag_get hd.deaf (ringPop (ringSlots s.cfg) (s.shared p).ring).2
  rw [drainToHost, drainRing_of_some _ e]
  refine drainRing_stalled _ (deafRun_hostSend (deafRun_refl hg) _).deaf ?_
  rw [hostSend_stalled_of_deaf hg]
  have h0 := hd.stalled
  rw [hst] at h0
  obtain e1 | e1 := h0 <;> obtain e2 | e2 := hgst <;> simp [e1, e2]

end

/-- Settles O52: in a quiet environment the drain is that of the ring; with a deaf host it is stuck. -/
theorem drainSendsRingVerbatim : Obligations.DrainSendsRingVerbatim := by
  intro s p hl hw
  refine ⟨fun hq => ?_, fun hsched hreset hst hc ht hne => ?_⟩
  · have h := quietRun_drainToHost hq p
    rw [drained_of_wf hw] at h
    obtain ⟨hb, hs, ha⟩ := quietRun_boundaryBut h (boundaryKeptBut_withRing p _ s) (withRing_trace p _ s)
    exact ⟨drainToHost p s, onPort_completes hl (hq.2 p) (sends_drainToHost rfl (sends_refl _ s)),
      mainKept_trans (mainKept_withRing p _ s) (notes_mainKept h.notes), hb, hs.trans (withRing_shared p _ s), ha⟩
  · have hstuck := drainToHost_stalled ⟨hsched, hreset, hc, ht⟩ hst fun e => hne ((ringContents_eq_nil hw).2 e)
    simp only [State.live, Bool.and_eq_true] at hl
    simp [exec, execDrainToHost, onPort, guardPort, hl, stallOutcome, hstuck]

end Sys2Proof.Machine

/-! ## `MUX_PUMP` and the scanner (R190, R216) -/

/-! ### The streams of a trace -/

namespace Sys2Proof.Machine

section
variable {p : Port} {s t : State} {es : List Event}

theorem uartStream_append (p : Port) (a b : List Event) : uartStream p (a ++ b) = uartStream p a ++ uartStream p b :=
  List.filterMap_append

theorem deviceStream_append (p : Port) (a b : List Event) :
    deviceStream p (a ++ b) = deviceStream p a ++ deviceStream p b := List.filterMap_append

/-- A stream that no log line adds to is that of the named events. -/
theorem filterMap_namedTrace {g : Event → Option Byte} (hg : ∀ e, e.named = false → g e = none) (l : List Event) :
    (namedTrace l).filterMap g = l.filterMap g := by
  rw [namedTrace, List.filterMap_filter]
  refine congrArg (List.filterMap · l) (funext fun e => ?_)
  cases h : e.named <;> simp [hg, h]

theorem uartStream_namedTrace (p : Port) (l : List Event) : uartStream p (namedTrace l) = uartStream p l :=
  filterMap_namedTrace (fun e he => by cases e with | log | logCut => rfl | _ => cases he) l

theorem deviceStream_namedTrace (p : Port) (l : List Event) : deviceStream p (namedTrace l) = deviceStream p l :=
  filterMap_namedTrace (fun e he => by cases e with | log | logCut => rfl | _ => cases he) l

theorem uartStream_of_adds (h : Adds s t es) (p : Port) :
    uartStream p t.trace = uartStream p s.trace ++ uartStream p es := by
  rw [← uartStream_namedTrace, h, uartStream_append, uartStream_namedTrace]

theorem deviceStream_of_adds (h : Adds s t es) (p : Port) :
    deviceStream p t.trace = deviceStream p s.trace ++ deviceStream p es := by
  rw [← deviceStream_namedTrace, h, deviceStream_append, deviceStream_namedTrace]

theorem uartStream_sentBytes (s : State) (p : Port) (bs : List Byte) : uartStream p (sentBytes s p bs) = [] := by
  unfold sentBytes
  split_ifs
  · simp [uartStream]
  · rfl

theorem deviceStream_sentBytes (s : State) (p : Port) (bs : List Byte) :
    deviceStream p (sentBytes s p bs) = if (s.env p).connected then bs else [] := by
  unfold sentBytes
  split_ifs
  · simp [deviceStream, List.filterMap_map]
  · rfl

end

end Sys2Proof.Machine

/-! ### The operation of one host byte -/

namespace Sys2Proof.Machine

/-- What an operation of a host byte puts on the UART (R192, R194). -/
def byteUart : ByteOp → List Byte
  | .pass b => [b]
  | .escLiteral => [0x1F]
  | _ => []

/-- The mode that an operation of a host byte leaves, begun in the mode `m` (R193, R205). -/
def byteMode (m : Bool) : ByteOp → Bool
  | .pass _ => m
  | .escArm => true
  | _ => false

/-- What an operation of a host byte of port `p` writes to the fields of `MAIN` and the flag. -/
def byteWritten (p : Port) (s : State) : ByteOp → State
  | .pass _ => s
  | .escArm => armEscape p s
  | .cmdSelfReset => (disarmEscape p s).setWdogArmed true
  | .cmdFwUpdate => (disarmEscape p s).setHalt .fwUpdate
  | .cmdForceDisconnect => forcedState p s
  | .cmdToggleVerbose => toggleVerbose p (disarmEscape p s)
  | .cmdRoute1 => routeSelected p s.cfg.routeOfKey1 (disarmEscape p s)
  | .cmdRoute2 => routeSelected p s.cfg.routeOfKey2 (disarmEscape p s)
  | .escLiteral | .cmdRebootTarget | .cmdDebugProbe | .cmdHelp | .cmdDrop _ => disarmEscape p s

/-- What the operation `o` of a host byte of port `p` has done between `s` and `t` in a quiet environment, of what the pump
and the scanner speak of. -/
structure ByteDone (p : Port) (o : ByteOp) (s t : State) : Prop where
  quiet : Quiet t
  cfg : t.cfg = s.cfg
  live : t.live p = s.live p
  env : t.env p = s.env p
  ring : (t.shared p).ring = (s.shared p).ring
  mode : (t.regs p).esc = byteMode (s.regs p).esc o
  halt : t.halt = if o = .cmdFwUpdate then .fwUpdate else s.halt
  uart : uartStream p t.trace = uartStream p s.trace ++ byteUart o
  device : deviceStream p t.trace = deviceStream p s.trace

section
variable {p : Port} {s : State}

theorem exec_byteOp (o : ByteOp) (p : Port) (s : State) : exec (o.instr p) s = onPort p (runByteOp p o) s := by
  cases o <;> rfl

/-- Every operation of a host byte is a run with its writes; of the named events it adds, those of the UART are `byteUart`
and none is a device byte. -/
theorem mainRun_runByteOp (p : Port) (o : ByteOp) (s : State) :
    ∃ es, MainRun p s (byteWritten p s o) (runByteOp p o s) es ∧ uartStream p es = byteUart o ∧
      deviceStream p es = [] := by
  have hd := mainRun_disarmed p s
  cases o with
  | pass b => exact ⟨_, mainRun_pass p b s, by simp [uartStream, byteUart], rfl⟩
  | escArm => exact ⟨_, mainRun_escArm p s, rfl, rfl⟩
  | escLiteral => exact ⟨_, mainRun_escLiteral p s, by simp [uartStream, byteUart], rfl⟩
  | cmdRebootTarget => exact ⟨_, cmdRebootTarget_eq p s ▸ mainRun_diag_tx hd _ _ _, rfl, rfl⟩
  | cmdDebugProbe => exact ⟨_, cmdDebugProbe_eq p s ▸ mainRun_diag_tx hd _ _ _, rfl, rfl⟩
  | cmdRoute1 =>
    exact ⟨_, selectRoute_eq p s.cfg.routeOfKey1 s ▸ mainRun_diag_tx (mainRun_routeSelected p _ s) _ _ _, rfl, rfl⟩
  | cmdRoute2 =>
    exact ⟨_, selectRoute_eq p s.cfg.routeOfKey2 s ▸ mainRun_diag_tx (mainRun_routeSelected p _ s) _ _ _, rfl, rfl⟩
  | cmdSelfReset => exact ⟨_, mainRun_cmdSelfReset p s, rfl, rfl⟩
  | cmdFwUpdate => exact ⟨_, mainRun_cmdFwUpdate p s, rfl, rfl⟩
  | cmdForceDisconnect => exact ⟨_, mainRun_cmdForceDisconnect p s, rfl, rfl⟩
  | cmdToggleVerbose => exact ⟨_, mainRun_cmdToggleVerbose p s, rfl, rfl⟩
  | cmdHelp => exact ⟨_, mainRun_cmdHelp p s, by split_ifs <;> rfl, by split_ifs <;> rfl⟩
  | cmdDrop b => exact ⟨_, hd, rfl, rfl⟩

/-- The writes of the operations of the host bytes, on what the pump and the scanner speak of. -/
theorem byteWritten_frame (p : Port) (s : State) (o : ByteOp) :
    (byteWritten p s o).live p = s.live p ∧ (byteWritten p s o).env p = s.env p ∧
      ((byteWritten p s o).shared p).ring = (s.shared p).ring ∧
      ((byteWritten p s o).regs p).esc = byteMode (s.regs p).esc o ∧
      (byteWritten p s o).halt = (if o = .cmdFwUpdate then .fwUpdate else s.halt) ∧
      (byteWritten p s o).cfg = s.cfg ∧ (byteWritten p s o).trace = s.trace := by
  cases o <;> simp [byteWritten, byteMode, State.live, armEscape, disarmEscape, forcedState, setPending, toggleVerbose,
    routeSelected, disconnectedRegs]

theorem byteDone_runByteOp (hq : Quiet s) (o : ByteOp) : ByteDone p o s (runByteOp p o s) := by
  obtain ⟨es, h, hu, hd⟩ := mainRun_runByteOp p o s
  obtain ⟨hlive, henv, hring, hmode, hhalt, hcfg, htrace⟩ := byteWritten_frame p s o
  have hk := h.kept
  have hr := h.quiet hq
  have hb := notes_boundaryKept hr.notes
  have ha : Adds s (runByteOp p o s) es := by simpa only [Adds, htrace] using notes_adds hr.notes
  exact {
    quiet := hr.quiet
    cfg := hk.cfg.trans hcfg
    live := by rw [← hlive, State.live, hk.regs, State.live]
    env := (hb.env p).trans henv
    ring := by rw [hb.shared, hring]
    mode := by rw [hk.regs, hmode]
    halt := hk.halt.trans hhalt
    uart := by rw [uartStream_of_adds ha, hu]
    device := by rw [deviceStream_of_adds ha, hd, List.append_nil] }

theorem exec_runByteOp (hl : s.live p = true) (ht : HostTakes p s) (o : ByteOp) :
    exec (o.instr p) s = .next (runByteOp p o s) :=
  (exec_byteOp o p s).trans (onPort_completes hl ht (sends_runByteOp (D := (· = p)) rfl (sends_refl _ s) o))

end

/-! ### The scanner, byte by byte (R216) -/

section
variable (m : Bool) {b : Byte} (bs : List Byte)

theorem decodeByte_of_ne_esc (h : b ≠ 0x1F) : decodeByte false b = .pass b := if_neg h

/-- What holds of the operations of the ten listed bytes and of every dropped byte holds of every byte while armed (R93). -/
theorem armed_of_listed {P : Byte → ByteOp → Prop} (listed : ∀ b ∈ armedBytes, P b (decodeArmed b))
    (dropped : b ∉ armedBytes → P b (.cmdDrop b)) : P b (decodeArmed b) := by
  by_cases h : b ∈ armedBytes
  · exact listed b h
  · exact decodeArmed_of_not_mem h ▸ dropped h

theorem ne_of_not_mem_armedBytes (h : b ∉ armedBytes) {x : Byte} (hx : x ∈ armedBytes) : b ≠ x := fun e => h (e ▸ hx)

theorem decodeArmed_eq_cmdFwUpdate_iff : decodeArmed b = .cmdFwUpdate ↔ b = 0x1E :=
  armed_of_listed (P := fun b o => o = .cmdFwUpdate ↔ b = 0x1E) (by decide) fun h =>
    iff_of_false nofun (ne_of_not_mem_armedBytes h (by decide))

theorem byteUart_decodeArmed : byteUart (decodeArmed b) = if b = 0x1F then [b] else [] :=
  armed_of_listed (P := fun b o => byteUart o = if b = 0x1F then [b] else []) (by decide) fun h =>
    (if_neg (ne_of_not_mem_armedBytes h (by decide))).symm

theorem byteMode_decodeArmed : byteMode true (decodeArmed b) = false :=
  armed_of_listed (P := fun _ o => byteMode true o = false) (by decide) fun _ => rfl

theorem isCommand_decodeArmed (p : Port) : isCommand ((decodeArmed b).instr p) = decide (b ∈ commandBytes) := by
  have hsub : commandBytes ⊆ armedBytes := by decide
  exact armed_of_listed (P := fun b o => isCommand (o.instr p) = decide (b ∈ commandBytes)) (by cases p <;> decide)
    fun h => (decide_eq_false fun hc => h (hsub hc)).symm

/-- The scanner puts on the UART what the operation of each byte does, up to a firmware-update command. -/
theorem scanUart_cons : scanUart m (b :: bs) = byteUart (decodeByte m b) ++
    if decodeByte m b = .cmdFwUpdate then [] else scanUart (byteMode m (decodeByte m b)) bs := by
  cases m with
  | false =>
    by_cases h : b = 0x1F
    · subst h; rfl
    · rw [decodeByte_of_ne_esc h, scanUart, if_neg h]; rfl
  | true =>
    simp only [scanUart, decodeByte, if_true, decodeArmed_eq_cmdFwUpdate_iff, byteUart_decodeArmed, byteMode_decodeArmed]
    split_ifs <;> simp_all

theorem scanMode_cons : scanMode m (b :: bs) =
    if decodeByte m b = .cmdFwUpdate then false else scanMode (byteMode m (decodeByte m b)) bs := by
  cases m with
  | false =>
    by_cases h : b = 0x1F
    · subst h; rfl
    · rw [decodeByte_of_ne_esc h, scanMode, if_neg h]; rfl
  | true => simp only [scanMode, decodeByte, if_true, decodeArmed_eq_cmdFwUpdate_iff, byteMode_decodeArmed]

theorem scanHalts_cons : scanHalts m (b :: bs) =
    if decodeByte m b = .cmdFwUpdate then true else scanHalts (byteMode m (decodeByte m b)) bs := by
  cases m with
  | false =>
    by_cases h : b = 0x1F
    · subst h; rfl
    · rw [decodeByte_of_ne_esc h, scanHalts, if_neg h]; rfl
  | true => simp only [scanHalts, decodeByte, if_true, decodeArmed_eq_cmdFwUpdate_iff, byteMode_decodeArmed]

/-- The commands of the scan are the bytes whose operation is one, in order. -/
theorem scanCommands_cons (p : Port) : (scanCommands m (b :: bs)).map (fun b => (decodeByte true b).instr p) =
    (if isCommand ((decodeByte m b).instr p) then [(decodeByte m b).instr p] else []) ++
      if decodeByte m b = .cmdFwUpdate then []
      else (scanCommands (byteMode m (decodeByte m b)) bs).map fun b => (decodeByte true b).instr p := by
  cases m with
  | false =>
    by_cases h : b = 0x1F
    · subst h; rfl
    · rw [decodeByte_of_ne_esc h, scanCommands, if_neg h]; rfl
  | true =>
    have h1E : (0x1E : Byte) ∈ commandBytes := by decide
    simp only [scanCommands, decodeByte, if_true, decodeArmed_eq_cmdFwUpdate_iff, byteMode_decodeArmed,
      isCommand_decodeArmed, decide_eq_true_eq]
    split_ifs <;> simp_all

end

/-! ### The pump -/

/-- What a pump of the host bytes `bs` of port `p` by the operations `is` has done between `s` and `t` in a quiet
environment, by the scanner of R216. -/
structure PumpDone (p : Port) (bs : List Byte) (is : List Instr) (s t : State) : Prop where
  pumps : Pumps p bs is s t
  commands : is.filter isCommand = (scanCommands (s.regs p).esc bs).map fun b => (decodeByte true b).instr p
  uart : uartStream p t.trace = uartStream p s.trace ++ scanUart (s.regs p).esc bs
  mode : (t.regs p).esc = scanMode (s.regs p).esc bs
  halt : t.halt = if scanHalts (s.regs p).esc bs then .fwUpdate else .running
  host : scanHalts (s.regs p).esc bs = false → (t.env p).host = []
  ring : scanHalts (s.regs p).esc bs = false → (s.shared p).ring.wf (ringSlots s.cfg) = true →
    ringContents (ringSlots s.cfg) (t.shared p).ring = [] ∧ deviceStream p t.trace = deviceStream p s.trace ++
      if (s.env p).connected then ringContents (ringSlots s.cfg) (s.shared p).ring else []

section
variable {p : Port} {s t u : State} {b : Byte} {bs : List Byte} {is : List Instr}

/-- Taking the oldest byte of the host channel of port `p` leaves `bs` there. -/
def withHost (p : Port) (bs : List Byte) (s : State) : State := s.updEnv p fun e => { e with host := bs }

theorem quiet_withHost (h : Quiet s) (p : Port) (bs : List Byte) : Quiet (withHost p bs s) :=
  quiet_updEnv h p _ (fun _ => rfl) (fun _ => rfl) fun _ => rfl

@[simp] theorem withHost_trace (p : Port) (bs : List Byte) (s : State) : (withHost p bs s).trace = s.trace := by
  simp [withHost]

@[simp] theorem withHost_regs (p q : Port) (bs : List Byte) (s : State) : (withHost p bs s).regs q = s.regs q := by
  simp [withHost]

@[simp] theorem withHost_shared (p q : Port) (bs : List Byte) (s : State) : (withHost p bs s).shared q = s.shared q := by
  simp [withHost]

@[simp] theorem withHost_cfg (p : Port) (bs : List Byte) (s : State) : (withHost p bs s).cfg = s.cfg := by simp [withHost]

@[simp] theorem withHost_env (p : Port) (bs : List Byte) (s : State) :
    (withHost p bs s).env p = { s.env p with host := bs } := by simp [withHost]

@[simp] theorem withHost_live (p q : Port) (bs : List Byte) (s : State) : (withHost p bs s).live q = s.live q := by
  simp [withHost, State.live]

@[simp] theorem withHost_running (p : Port) (bs : List Byte) (s : State) : running (withHost p bs s) = running s := by
  simp [withHost, running]

theorem hostTryRecv_of_nil (h : (s.env p).host = []) : hostTryRecv p s = (none, s) := by
  unfold hostTryRecv
  split_ifs
  · rfl
  · rw [h]

theorem hostTryRecv_of_cons (hr : s.resetReq = none) (h : (s.env p).host = b :: bs) :
    hostTryRecv p s = (some b, withHost p bs s) := by
  simp [hostTryRecv, hr, h, withHost]

theorem running_iff : running s = true ↔ s.halt = .running := by simp [running]

/-- No operation of a host byte but the firmware-update command halts the block (R197, R226). -/
theorem running_of_byteDone {o : ByteOp} (hd : ByteDone p o s t) (hr : running s = true) :
    running t = true ↔ o ≠ .cmdFwUpdate := by
  rw [running_iff, hd.halt, running_iff.1 hr]
  split_ifs <;> simp [*]

theorem pumpLoop_of_nil (n : Nat) (hq : Quiet s) (h : (s.env p).host = []) : pumpLoop p (n + 1) s = drainToHost p s := by
  rw [pumpLoop, point_of_quiet hq, hostTryRecv_of_nil h]

theorem pumpLoop_of_cons (n : Nat) (hq : Quiet s) (h : (s.env p).host = b :: bs) {v : State}
    (hv : runByteOp p (decodeByte (s.regs p).esc b) (withHost p bs s) = v) :
    pumpLoop p (n + 1) s = if running v then pumpLoop p n v else v := by
  rw [pumpLoop, point_of_quiet hq, hostTryRecv_of_cons (quiet_resetReq hq) h]
  dsimp only
  rw [muxByte, withHost_regs, hv]

/-- With no byte waiting the pump is the drain (R190, R211). -/
theorem pumpDone_nil (hl : s.live p = true) (hq : Quiet s) (hr : running s = true) (h : (s.env p).host = []) :
    PumpDone p [] [] s (drainToHost p s) := by
  have hd := quietRun_drainToHost hq p
  have hk := mainKept_trans (mainKept_withRing p _ s) (notes_mainKept hd.notes)
  obtain ⟨hb, hs, ha⟩ := quietRun_boundaryBut hd (boundaryKeptBut_withRing p _ s) (withRing_trace p _ s)
  have hx : exec (.drainToHost p) s = .next (drainToHost p s) :=
    onPort_completes hl (hq.2 p) (sends_drainToHost rfl (sends_refl _ s))
  refine ⟨⟨rfl, hx⟩, rfl, ?_, ?_, ?_, fun _ => ?_, fun _ hw => ⟨?_, ?_⟩⟩
  · rw [uartStream_of_adds ha, uartStream_sentBytes]
    rfl
  · rw [hk.regs]
    rfl
  · exact hk.halt.trans (running_iff.1 hr)
  · rw [hb.env, h]
  · obtain ⟨hlen, -, hw'⟩ := (ring_wf_iff _ _).1 hw
    rw [hs, drained_of_wf hw, withRing_shared]
    have hwf : Ring.wf (ringSlots s.cfg) { (s.shared p).ring with r := (s.shared p).ring.w } = true :=
      (ring_wf_iff _ _).2 ⟨hlen, hw', hw'⟩
    exact (ringContents_eq_nil hwf).2 rfl
  · rw [deviceStream_of_adds ha, deviceStream_sentBytes, drained_of_wf hw]

/-- A firmware-update command ends the pump at once (R197, R226). -/
theorem pumpDone_halt (hr : running s = true) (hd : ByteDone p (decodeByte (s.regs p).esc b) (withHost p bs s) u)
    (hx : exec ((decodeByte (s.regs p).esc b).instr p) (withHost p bs s) = .next u)
    (ho : decodeByte (s.regs p).esc b = .cmdFwUpdate) :
    PumpDone p (b :: bs) [(decodeByte (s.regs p).esc b).instr p] s u := by
  have hhalt : ¬ running u = true := fun e => (running_of_byteDone hd (by simpa using hr)).1 e ho
  have hscan : scanHalts (s.regs p).esc (b :: bs) = true := by rw [scanHalts_cons, if_pos ho]
  refine ⟨⟨[], u, rfl, hx, by rw [if_neg hhalt]; exact ⟨rfl, rfl⟩⟩, ?_, ?_, ?_, ?_, ?_, ?_⟩
  · rw [scanCommands_cons, ho]; rfl
  · rw [scanUart_cons, if_pos ho, List.append_nil, hd.uart, withHost_trace]
  · rw [scanMode_cons, if_pos ho, hd.mode, ho]; rfl
  · rw [hscan, hd.halt, ho]; rfl
  · exact fun e => absurd (hscan.symm.trans e) (by decide)
  · exact fun e => absurd (hscan.symm.trans e) (by decide)

/-- Any other operation of a byte, and then the pump of the rest. -/
theorem pumpDone_cons (hr : running s = true) (hd : ByteDone p (decodeByte (s.regs p).esc b) (withHost p bs s) u)
    (hx : exec ((decodeByte (s.regs p).esc b).instr p) (withHost p bs s) = .next u)
    (ho : decodeByte (s.regs p).esc b ≠ .cmdFwUpdate) (h : PumpDone p bs is u t) :
    PumpDone p (b :: bs) ((decodeByte (s.regs p).esc b).instr p :: is) s t := by
  have hrun : running u = true := (running_of_byteDone hd (by simpa using hr)).2 ho
  have hmode : (u.regs p).esc = byteMode (s.regs p).esc (decodeByte (s.regs p).esc b) := by simp [hd.mode]
  have hcfg : u.cfg = s.cfg := by simp [hd.cfg]
  have hring : (u.shared p).ring = (s.shared p).ring := by simp [hd.ring]
  have hconn : (u.env p).connected = (s.env p).connected := by simp [hd.env]
  have hscan : scanHalts (s.regs p).esc (b :: bs) = scanHalts (u.regs p).esc bs := by
    rw [scanHalts_cons, if_neg ho, hmode]
  refine ⟨⟨is, u, rfl, hx, by rw [if_pos hrun]; exact h.pumps⟩, ?_, ?_, ?_, ?_, ?_, ?_⟩
  · rw [scanCommands_cons, if_neg ho, ← hmode, ← h.commands, List.filter_cons]
    split_ifs <;> rfl
  · rw [scanUart_cons, if_neg ho, ← hmode, h.uart, hd.uart, withHost_trace, List.append_assoc]
  · rw [scanMode_cons, if_neg ho, ← hmode, h.mode]
  · rw [hscan, h.halt]
  · exact fun e => h.host (hscan ▸ e)
  · intro e hw
    obtain ⟨hempty, hsent⟩ := h.ring (hscan ▸ e) (by rwa [hring, hcfg])
    rw [hcfg] at hempty hsent
    rw [hd.device, hring, hconn, withHost_trace] at hsent
    exact ⟨hempty, hsent⟩

/-- With a bound above the number of bytes waiting, the pump of a quiet environment is that of the scanner. -/
theorem pumpDone_pumpLoop (n : Nat) (hl : s.live p = true) (hq : Quiet s) (hr : running s = true)
    (hbs : (s.env p).host = bs) (hn : bs.length < n) : ∃ is, PumpDone p bs is s (pumpLoop p n s) := by
  induction n generalizing s bs with
  | zero => exact absurd hn (Nat.not_lt_zero _)
  | succ n ih =>
    cases bs with
    | nil => exact ⟨[], pumpLoop_of_nil n hq hbs ▸ pumpDone_nil hl hq hr hbs⟩
    | cons b bs =>
      have hqh := quiet_withHost hq p bs
      have hlh : (withHost p bs s).live p = true := by simpa using hl
      have hd := byteDone_runByteOp (p := p) hqh (decodeByte (s.regs p).esc b)
      have hx := exec_runByteOp hlh (hqh.2 p) (decodeByte (s.regs p).esc b)
      have hrun := running_of_byteDone hd (by simpa using hr)
      rw [pumpLoop_of_cons n hq hbs rfl]
      by_cases ho : decodeByte (s.regs p).esc b = .cmdFwUpdate
      · rw [if_neg fun e => hrun.1 e ho]
        exact ⟨_, pumpDone_halt hr hd hx ho⟩
      · rw [if_pos (hrun.2 ho)]
        obtain ⟨is, h⟩ := ih (hd.live.trans hlh) hd.quiet (hrun.2 ho) (by rw [hd.env, withHost_env])
          (Nat.lt_of_succ_lt_succ hn)
        exact ⟨_, pumpDone_cons hr hd hx ho h⟩

end

/-- Settles O40: the bound of the pump is never met, and each step of the scanner is the operation of its byte. -/
theorem pumpScansHostBytes : Obligations.PumpScansHostBytes := by
  intro s p hl hq hr
  obtain ⟨is, h⟩ := pumpDone_pumpLoop ((s.env p).host.length + schedWeight s + 1) hl hq hr rfl (by omega)
  exact ⟨muxPump p s, is, onPort_completes hl (hq.2 p) (sends_muxPump rfl (sends_refl _ s)), h.pumps, h.commands, h.uart,
    h.mode, h.halt, fun e => ⟨h.host e, h.ring e⟩⟩

end Sys2Proof.Machine

/-! ## The selection of the next operation (R190, R220, R222, R224, R228) -/

namespace Sys2Proof.Machine

section
variable {p : Port} {s t : State} {b : Byte} {bs : List Byte} {i : Instr}

theorem step_of_fetch_some (h : fetch s = (some i, t)) : step s = settleOutcome (exec i t) := by rw [step, h]

/-- A step that is only a test, with no device reset coming. -/
theorem step_of_fetch_none (h : fetch s = (none, t)) (ht : t.resetReq = none) : step s = .next t := by
  rw [step, h]
  simp [settleOutcome, settle, ht]

/-! ### By the run loop position, of a running block with no device reset coming -/

theorem fetch_entry (hr : s.resetReq = none) (hrun : running s = true) (hpos : s.pos = .entry) :
    fetch s = (some .mainEntry, s) := by simp [fetch, hr, hrun, hpos]

theorem fetch_turn (hr : s.resetReq = none) (hrun : running s = true) (hpos : s.pos = .turn p) (hl : s.live p = true) :
    fetch s = (if (takePending p s).1 then some (.service p) else none, (takePending p s).2) := by
  simp [fetch, hr, hrun, hpos, hl]

theorem fetch_absent (hr : s.resetReq = none) (hrun : running s = true) (hpos : s.pos = .turn p ∨ s.pos = .pump p)
    (hl : s.live p = false) : fetch s = (none, s.setPos (afterTurn p)) := by
  obtain hpos | hpos := hpos <;> simp [fetch, hr, hrun, hpos, hl]

theorem fetch_pump_byte (hr : s.resetReq = none) (hrun : running s = true) (hpos : s.pos = .pump p)
    (hl : s.live p = true) (hget : hostTryRecv p (point s) = (some b, t)) :
    fetch s = (some ((decodeByte (t.regs p).esc b).instr p), t) := by simp [fetch, hr, hrun, hpos, hl, hget]

theorem fetch_pump_drain (hr : s.resetReq = none) (hrun : running s = true) (hpos : s.pos = .pump p)
    (hl : s.live p = true) (hget : hostTryRecv p (point s) = (none, t)) :
    fetch s = (some (.drainToHost p), t.setPos (afterTurn p)) := by simp [fetch, hr, hrun, hpos, hl, hget]

theorem fetch_transport (hr : s.resetReq = none) (hrun : running s = true) (hpos : s.pos = .transport) :
    fetch s = (some .transportService, s.setPos .idleTest) := by simp [fetch, hr, hrun, hpos]

theorem fetch_idleTest (hr : s.resetReq = none) (hrun : running s = true) (hpos : s.pos = .idleTest) :
    fetch s = (none, idleTest s) := by simp [fetch, hr, hrun, hpos]

theorem fetch_idle (hr : s.resetReq = none) (hrun : running s = true) (hpos : s.pos = .idle) :
    fetch s = (some .idleWait, s) := by simp [fetch, hr, hrun, hpos]

theorem takePending_of_quiet (hq : Quiet s) (p : Port) :
    takePending p s = ((s.shared p).pending, (clearPending p s).setPos (.pump p)) := by
  rw [takePending, point_of_quiet hq]

/-- Clearing a flag that is clear changes nothing. -/
theorem clearPending_of_clear (h : (s.shared p).pending = false) : clearPending p s = s := by
  have e : { s.shared p with pending := false } = s.shared p := by rw [← h]
  rw [clearPending, State.updShared, e]
  cases p <;> rfl

end

/-- Settles O7: the selection, position by position; no interrupt point of a quiet environment changes anything. -/
theorem stepRunsSelectedOperation : Obligations.StepRunsSelectedOperation := by
  intro s hq hrun
  have hr := quiet_resetReq hq
  have hp := point_of_quiet hq
  refine ⟨?entry, ?pending, ?notPending, ?absent, ?byte, ?drain, ?transport, ?idleTest, ?idle⟩
  case entry => exact fun hpos => step_of_fetch_some (fetch_entry hr hrun hpos)
  case pending =>
    intro p hpos hl hpend
    have hf := fetch_turn hr hrun hpos hl
    rw [takePending_of_quiet hq, hpend] at hf
    exact step_of_fetch_some hf
  case notPending =>
    intro p hpos hl hpend
    have hf := fetch_turn hr hrun hpos hl
    rw [takePending_of_quiet hq, hpend, clearPending_of_clear hpend] at hf
    exact step_of_fetch_none hf hr
  case absent => exact fun p hpos hl => step_of_fetch_none (fetch_absent hr hrun hpos hl) hr
  case byte =>
    intro p b bs hpos hl hhost
    have hget : hostTryRecv p (point s) = (some b, withHost p bs s) := by rw [hp, hostTryRecv_of_cons hr hhost]
    have hf := fetch_pump_byte hr hrun hpos hl hget
    rw [withHost_regs] at hf
    exact step_of_fetch_some hf
  case drain =>
    intro p hpos hl hhost
    have hget : hostTryRecv p (point s) = (none, s) := by rw [hp, hostTryRecv_of_nil hhost]
    exact step_of_fetch_some (fetch_pump_drain hr hrun hpos hl hget)
  case transport => exact fun hpos => step_of_fetch_some (fetch_transport hr hrun hpos)
  case idleTest =>
    intro hpos
    have hf := fetch_idleTest hr hrun hpos
    rw [idleTest, hp] at hf
    exact step_of_fetch_none hf hr
  case idle => exact fun hpos => step_of_fetch_some (fetch_idle hr hrun hpos)

/-! ### A placed word (R111) -/

section
variable {s : State}

/-- With nothing scheduled an interrupt point touches nothing the environment owns, and no device reset comes. -/
theorem point_env_of_sched_nil (h : s.sched = []) (p : Port) :
    (point s).env p = s.env p ∧ (point s).resetReq = s.resetReq := by
  obtain e | e := point_of_sched_nil h <;> rw [e]
  · exact ⟨rfl, rfl⟩
  · obtain ⟨-, henv, -, hreset⟩ := takeIrqs_frame s p
    exact ⟨henv, hreset⟩

theorem mainKept_withHost (p : Port) (bs : List Byte) (s : State) : MainKept s (withHost p bs s) := by
  constructor <;> simp [withHost]

/-- The unit placed: port 0 live with the mode, its one byte on the channel, `MAIN` at its pump, nothing scheduled. -/
theorem placeUnit_frame (m : Bool) (b : Byte) (s : State) :
    (placeUnit (m, b) s).resetReq = none ∧ (placeUnit (m, b) s).sched = [] ∧ running (placeUnit (m, b) s) = true ∧
      (placeUnit (m, b) s).pos = .pump .p0 ∧ (placeUnit (m, b) s).live .p0 = true ∧
      ((placeUnit (m, b) s).regs .p0).esc = m ∧ ((placeUnit (m, b) s).env .p0).host = [b] :=
  ⟨rfl, rfl, rfl, rfl, rfl, rfl, rfl⟩

/-- The next step runs the operation of the placed byte in the placed mode. -/
theorem step_placeUnit (m : Bool) (b : Byte) (s : State) :
    step (placeUnit (m, b) s) =
      settleOutcome (exec ((decodeByte m b).instr .p0) (withHost .p0 [] (point (placeUnit (m, b) s)))) := by
  obtain ⟨hr, hs, hrun, hpos, hl, hesc, hhost⟩ := placeUnit_frame m b s
  obtain ⟨henv, hreset⟩ := point_env_of_sched_nil hs .p0
  have hget := hostTryRecv_of_cons (p := .p0) (hreset.trans hr) (henv ▸ hhost)
  have hf := fetch_pump_byte hr hrun hpos hl hget
  rw [withHost_regs, point_regs, hesc] at hf
  exact step_of_fetch_some hf

end

/-- Settles O8: between the placing and the operation stand an interrupt point and the byte taken. -/
theorem placedWordRuns : Obligations.PlacedWordRuns := by
  intro s nbits w i hi
  obtain rfl := Option.some.inj hi
  have hl : (s.withFetchWord nbits w).live .p0 = true := rfl
  exact ⟨withHost .p0 [] (point (s.withFetchWord nbits w)), step_placeUnit _ _ s,
    mainKept_trans (mainKept_point _) (mainKept_withHost _ _ _), by simp, by simpa using hl⟩

end Sys2Proof.Machine

/-! # The run loop family: the idle wait, the halt, the transport call, the entry, and a pass as the machine's own steps -/

/-! ## A halted block (R226) -/

namespace Sys2Proof.Machine

/-- No device reset was requested and none is scheduled (R227, R229). -/
def NoReset (s : State) : Prop := s.resetReq = none ∧ NoResetMoves s

section
variable {s t : State} {p q : Port}

/-! ### No device reset comes from the schedule -/

theorem noReset_congr (h : NoReset s) (hr : t.resetReq = s.resetReq) (hs : t.sched = s.sched) : NoReset t := by
  obtain ⟨hnone, hmoves⟩ := h
  exact ⟨hr.trans hnone, by rwa [NoResetMoves, hs]⟩

/-- A move that is no device reset requests none. -/
theorem applyMove_resetReq {m : EnvMove} (hm : ∀ c, m ≠ .reset c) (s : State) :
    (applyMove m s).resetReq = s.resetReq := by
  cases m with
  | reset c => exact absurd rfl (hm c)
  | rxMsg p r => simp only [applyMove]; split_ifs <;> simp
  | uartByte p b => simp only [applyMove, uartReceive]; split_ifs <;> simp [ringPut]
  | _ => simp [applyMove, hostActivity]

/-- Without a device reset among its moves an interrupt point plays all of them. -/
theorem playMoves_of_noReset {ms : List EnvMove} (hms : ∀ c, EnvMove.reset c ∉ ms) (hr : s.resetReq = none) :
    (playMoves ms s).resetReq = none ∧ (playMoves ms s).sched = s.sched := by
  induction ms generalizing s with
  | nil => exact ⟨hr, rfl⟩
  | cons m ms ih =>
    obtain ⟨-, -, hsched, hreset⟩ := takeIrqs_frame (applyMove m s) .p0
    have hm : ∀ c, m ≠ .reset c := fun c e => hms c (e ▸ List.mem_cons_self)
    obtain ⟨h1, h2⟩ := ih (s := takeIrqs (applyMove m s)) (fun c hc => hms c (List.mem_cons_of_mem _ hc))
      (by rw [hreset, applyMove_resetReq hm, hr])
    unfold playMoves
    rw [if_neg (by simp [hr])]
    exact ⟨h1, by rw [h2, hsched, (applyMove_frame s m [] .p0).2.1]⟩

theorem noReset_point (h : NoReset s) : NoReset (point s) := by
  obtain ⟨hr, hm⟩ := h
  unfold point
  rw [if_neg (by simp [hr])]
  split
  next =>
    obtain ⟨-, -, hsched, hreset⟩ := takeIrqs_frame s .p0
    exact noReset_congr ⟨hr, hm⟩ hreset hsched
  next ms rest hs =>
    obtain ⟨-, -, hsched, hreset⟩ := takeIrqs_frame (playMoves ms (s.setSched rest)) .p0
    have hms := hm ms (by simp [hs])
    obtain ⟨h1, h2⟩ := playMoves_of_noReset (s := s.setSched rest) hms hr
    refine ⟨hreset.trans h1, fun l hl => hm l ?_⟩
    rw [hsched, h2] at hl
    rw [hs]
    exact List.mem_cons_of_mem _ hl

/-! ### No handler runs after a halt -/

theorem irqReady_of_halted (h : running s = false) (q : Port) : irqReady s q = false := by simp [irqReady, h]

theorem takeIrqs_of_halted (h : running s = false) : takeIrqs s = s := by
  rw [takeIrqs, chipIrq_of_not_ready (irqReady_of_halted h), chipIrq_of_not_ready (irqReady_of_halted h)]

theorem applyMove_shared_of_halted (h : running s = false) (m : EnvMove) (q : Port) :
    (applyMove m s).shared q = s.shared q := by
  cases m with
  | uartByte p b => simp [applyMove, uartReceive, h]
  | rxMsg p r => simp only [applyMove]; split_ifs <;> simp
  | reset c => simp only [applyMove]; split_ifs <;> simp
  | _ => simp [applyMove, hostActivity]

theorem playMoves_shared_of_halted (h : running s = false) (ms : List EnvMove) (q : Port) :
    (playMoves ms s).shared q = s.shared q := by
  induction ms generalizing s with
  | nil => rfl
  | cons m ms ih =>
    have hm : running (applyMove m s) = false := by simpa using h
    unfold playMoves
    split_ifs
    · simp
    · rw [takeIrqs_of_halted hm, ih hm, applyMove_shared_of_halted h]

/-- After a halt an interrupt point leaves flags, line masks and rings as they are. -/
theorem point_shared_of_halted (h : running s = false) (q : Port) : (point s).shared q = s.shared q := by
  unfold point
  split_ifs
  · rfl
  · split
    next => rw [takeIrqs_of_halted h]
    next ms rest _ =>
      rw [takeIrqs_of_halted (by simpa [running] using h),
        playMoves_shared_of_halted (by simpa [running] using h), shared_setSched]

theorem fetch_halted (hr : s.resetReq = none) (h : running s = false) : fetch s = (none, point s) := by
  simp [fetch, hr, h]

/-! ## The idle wait (R222) -/

theorem idleWait_of_still (h : Still s) :
    idleWait s = if s.wake then (s.setWake false).setPos passStart else s.setPos .idle := by
  rw [idleWait, point_of_still h]

theorem idleWait_pos (s : State) : (idleWait s).pos = .idle ∨ (idleWait s).pos = passStart := by
  unfold idleWait
  dsimp only
  split_ifs
  · exact .inr rfl
  · exact .inl rfl

theorem idleWait_frame (s : State) : (idleWait s).cfg = s.cfg ∧ (idleWait s).wdogArmed = s.wdogArmed ∧
    (idleWait s).halt = s.halt ∧ (idleWait s).ret = s.ret ∧ (∀ p, (idleWait s).regs p = s.regs p) ∧
    (∀ p, (idleWait s).out p = s.out p) ∧ (idleWait s).trace = s.trace := by
  unfold idleWait
  dsimp only
  split_ifs <;> simp

theorem setPos_of_eq {x : MainPos} (h : s.pos = x) : s.setPos x = s := by rw [← h]; rfl

end

/-- Settles O54: the one interrupt point of the wait changes nothing in a still environment. -/
theorem idleWaitEndsByInterrupt : Obligations.IdleWaitEndsByInterrupt := by
  intro s
  obtain ⟨hcfg, hwdog, hhalt, hret, hregs, hout, htrace⟩ := idleWait_frame s
  refine ⟨idleWait s, rfl, hcfg, hwdog, hhalt, hret, hregs, hout, htrace, idleWait_pos s, fun hq => ?_⟩
  rw [idleWait_of_still hq.1]
  exact ⟨fun hw => if_pos hw, fun hw => if_neg (by simp [hw])⟩

/-- Settles O10: a halted block's step is one interrupt point, at which no handler runs; the idle wait's is that wait. -/
theorem haltedAndIdleBlocksStay : Obligations.HaltedAndIdleBlocksStay := by
  refine ⟨fun s hhalt hr hmoves => ?halted, fun s hstill hrun hpos hwake => ?idle⟩
  case halted =>
    obtain ⟨hr', -⟩ := noReset_point ⟨hr, hmoves⟩
    exact ⟨point s, step_of_fetch_none (fetch_halted hr hhalt) hr', mainKept_point s, point_shared_of_halted hhalt,
      point_trace s⟩
  case idle =>
    have hr : s.resetReq = none := hstill.2.1
    have hw : idleWait s = s := by
      rw [idleWait_of_still hstill, if_neg (by simp [hwake]), setPos_of_eq hpos]
    have hx : exec .idleWait s = .next s := congrArg Host.Outcome.next hw
    rw [step_of_fetch_some (fetch_idle hr hrun hpos), hx]
    simp [settleOutcome, settle, hr]

end Sys2Proof.Machine

/-! ## The transport call (R224) -/

namespace Sys2Proof.Machine

/-- The line break of port `p` after the break calls `cs`, `b` before them: as the last call for the port says (R206,
R207). -/
def breakAfter (p : Port) (b : Bool) (cs : List BreakCall) : Bool :=
  ((cs.filter fun c => c.port = p).getLast?.map BreakCall.begins).getD b

section
variable {s t u : State} {p : Port} {c : BreakCall} {cs : List BreakCall}

theorem breakAfter_cons_own (h : c.port = p) (b : Bool) (cs : List BreakCall) :
    breakAfter p b (c :: cs) = breakAfter p c.begins cs := by
  simp only [breakAfter, h, decide_true, List.filter_cons_of_pos, List.getLast?_cons]
  cases (cs.filter fun c => c.port = p).getLast? <;> rfl

theorem breakAfter_cons_other (h : c.port ≠ p) (b : Bool) (cs : List BreakCall) :
    breakAfter p b (c :: cs) = breakAfter p b cs := by
  simp [breakAfter, h]

/-- A break call delivered to a live port is one output write after the optional `DIAG` lines, whatever its hint (D40). -/
theorem deliverBreak_of_live (h : s.live c.port = true) :
    deliverBreak c s = outWrite c.port (.uartBreak c.begins) (diag c.port s) := by
  unfold deliverBreak
  rw [if_pos h]
  cases c.begins <;> rfl

theorem deliverBreak_of_not_live (h : s.live c.port = false) : deliverBreak c s = s := if_neg (by simp [h])

/-! ### In every environment -/

/-- From `s` to `t` nothing that `MAIN` owns was written but line breaks of live ports. -/
structure BreaksOnly (s t : State) : Prop where
  cfg : t.cfg = s.cfg
  wdogArmed : t.wdogArmed = s.wdogArmed
  halt : t.halt = s.halt
  pos : t.pos = s.pos
  ret : t.ret = s.ret
  regs : ∀ p, t.regs p = s.regs p
  out : ∀ p, t.out p = { s.out p with uartBreak := (t.out p).uartBreak }
  notLive : ∀ p, s.live p = false → t.out p = s.out p

theorem breaksOnly_of_mainKept (h : MainKept s t) : BreaksOnly s t :=
  ⟨h.cfg, h.wdogArmed, h.halt, h.pos, h.ret, h.regs, fun p => by rw [h.out], fun p _ => h.out p⟩

theorem breaksOnly_live (h : BreaksOnly s t) (p : Port) : t.live p = s.live p := by rw [State.live, h.regs, State.live]

theorem breaksOnly_trans (h : BreaksOnly s t) (h' : BreaksOnly t u) : BreaksOnly s u where
  cfg := h'.cfg.trans h.cfg
  wdogArmed := h'.wdogArmed.trans h.wdogArmed
  halt := h'.halt.trans h.halt
  pos := h'.pos.trans h.pos
  ret := h'.ret.trans h.ret
  regs p := (h'.regs p).trans (h.regs p)
  out p := by rw [h'.out p, h.out p]
  notLive p hl := (h'.notLive p ((breaksOnly_live h p).trans hl)).trans (h.notLive p hl)

theorem breaksOnly_outWrite (h : s.live p = true) (b : Bool) : BreaksOnly s (outWrite p (.uartBreak b) s) := by
  constructor
  case out =>
    intro q
    by_cases e : q = p <;> simp [writeOutput, e]
  case notLive =>
    intro q hq
    have e : q ≠ p := fun e => by simp [e, h] at hq
    simp [e]
  all_goals simp

theorem breaksOnly_deliverBreak (c : BreakCall) (s : State) : BreaksOnly s (deliverBreak c s) := by
  cases h : s.live c.port with
  | true =>
    rw [deliverBreak_of_live h]
    exact breaksOnly_trans (breaksOnly_of_mainKept (mainKept_diag _ s)) (breaksOnly_outWrite (by simpa using h) _)
  | false =>
    rw [deliverBreak_of_not_live h]
    exact breaksOnly_of_mainKept (mainKept_refl s)

theorem mainKept_setCalls (s : State) (cs : List BreakCall) : MainKept s (s.setCalls cs) := by constructor <;> simp

theorem breaksOnly_deliverCalls (n : Nat) (s : State) : BreaksOnly s (deliverCalls n s) := by
  have r := breaksOnly_of_mainKept (mainKept_refl s)
  induction n generalizing s with
  | zero => exact r
  | succ n ih =>
    unfold deliverCalls
    split_ifs
    · exact r
    · split
      next => exact r
      next c rest _ =>
        have hc := breaksOnly_of_mainKept (mainKept_setCalls s rest)
        exact breaksOnly_trans (breaksOnly_trans hc (breaksOnly_deliverBreak c _))
          (ih _ (breaksOnly_of_mainKept (mainKept_refl _)))

theorem breaksOnly_transportService (s : State) : BreaksOnly s (transportService s) :=
  breaksOnly_trans (breaksOnly_of_mainKept (mainKept_point s)) (breaksOnly_deliverCalls _ _)

/-! ### In a quiet environment -/

theorem quiet_setCalls (h : Quiet s) (cs : List BreakCall) : Quiet (s.setCalls cs) :=
  quiet_congr h (by simp) (by simp) (by simp [irqReady, State.live, running]) (by simp) (by simp) (by simp)

theorem boundaryKept_setCalls (h : BoundaryKept s t) (cs : List BreakCall) :
    BoundaryKept (s.setCalls cs) (t.setCalls cs) where
  shared := h.shared
  env := h.env
  registers := h.registers
  calls := rfl
  sched := h.sched
  resetReq := h.resetReq
  wake := h.wake

theorem deliverCalls_of_nil (n : Nat) (h : s.calls = []) : deliverCalls n s = s := by
  cases n with
  | zero => rfl
  | succ n =>
    unfold deliverCalls
    rw [h]
    split_ifs <;> rfl

theorem deliverCalls_of_cons (n : Nat) (hr : s.resetReq = none) (h : s.calls = c :: cs) :
    deliverCalls (n + 1) s = deliverCalls n (deliverBreak c (s.setCalls cs)) := by
  simp only [deliverCalls, hr, h, Option.isSome_none, Bool.false_eq_true, if_false]

/-- One call delivered: its line is as it says, if its port is live, and every other output is as before. -/
theorem deliverBreak_of_quiet (h : Quiet s) (c : BreakCall) :
    Quiet (deliverBreak c s) ∧ BoundaryKept s (deliverBreak c s) ∧ ∀ p, s.live p = true →
      ((deliverBreak c s).out p).uartBreak = if c.port = p then c.begins else (s.out p).uartBreak := by
  cases hl : s.live c.port with
  | true =>
    rw [deliverBreak_of_live hl]
    have hr := quietRun_outWrite (quietRun_diag (quietRun_refl h) c.port) c.port (.uartBreak c.begins)
    obtain ⟨-, hb, -, -, -⟩ := quietRun_frame hr (rewritten_updOut (rewritten_refl c.port s) _)
    refine ⟨hr.quiet, hb, fun p _ => ?_⟩
    by_cases e : p = c.port
    · simp [e, writeOutput]
    · simp [e, Ne.symm e]
  | false =>
    rw [deliverBreak_of_not_live hl]
    refine ⟨h, boundaryKept_refl s, fun p hp => ?_⟩
    have e : c.port ≠ p := fun e => by simp [e, hp] at hl
    rw [if_neg e]

/-- With a bound of at least the calls waiting, all of them are delivered, and the last one for a live port decides its
line. -/
theorem deliverCalls_of_quiet (n : Nat) (hq : Quiet s) (hcs : s.calls = cs) (hn : cs.length ≤ n) :
    BoundaryKept (s.setCalls []) (deliverCalls n s) ∧ ∀ p, s.live p = true →
      ((deliverCalls n s).out p).uartBreak = breakAfter p (s.out p).uartBreak cs := by
  induction cs generalizing n s with
  | nil =>
    have e : s.setCalls [] = s := by rw [← hcs]; rfl
    rw [deliverCalls_of_nil n hcs, e]
    exact ⟨boundaryKept_refl s, fun p _ => rfl⟩
  | cons c cs ih =>
    obtain ⟨n, rfl⟩ : ∃ m, n = m + 1 := ⟨n - 1, by rw [List.length_cons] at hn; omega⟩
    rw [deliverCalls_of_cons n (quiet_resetReq hq) hcs]
    obtain ⟨hq', hb, hbreak⟩ := deliverBreak_of_quiet (quiet_setCalls hq cs) c
    obtain ⟨hb', hrest⟩ := ih n hq' hb.calls (Nat.le_of_succ_le_succ hn)
    refine ⟨boundaryKept_trans (boundaryKept_setCalls hb []) hb', fun p hl => ?_⟩
    have hl' : (deliverBreak c (s.setCalls cs)).live p = true := (breaksOnly_live (breaksOnly_deliverBreak c _) p).trans hl
    rw [hrest p hl', hbreak p hl]
    by_cases e : c.port = p
    · rw [if_pos e, breakAfter_cons_own e]
    · rw [if_neg e, breakAfter_cons_other e, out_setCalls]

end

/-- Settles O53: a quiet call starts with its interrupt point without effect, and its bound is the calls waiting. -/
theorem transportServiceDeliversBreaks : Obligations.TransportServiceDeliversBreaks := by
  intro s ht
  have hsend := sends_transportService (D := fun _ => True) (fun _ => trivial) (sends_refl _ s)
  have hst := hostTakes_stalled (hsend.duty (fun p _ => ht p) .p0 (ht .p0))
  have hb := breaksOnly_transportService s
  refine ⟨transportService s, stallOutcome_of_none hst, hb.cfg, hb.wdogArmed, hb.halt, hb.pos, hb.ret, hb.regs, hb.out,
    hb.notLive, fun hq => ?_⟩
  rw [transportService, point_of_quiet hq]
  exact deliverCalls_of_quiet _ hq rfl (Nat.le_add_right _ _)

end Sys2Proof.Machine

/-! ## `MAIN_ENTRY` (R228) -/

namespace Sys2Proof.Machine

section
variable {s t u v : State} {p : Port}

/-! ### `SETUP` in every environment (R52, R121) -/

theorem othersKept_updShared (h : OthersKept p s t) (f : Shared → Shared) : OthersKept p s (t.updShared p f) :=
  othersKept_keep h (by constructor <;> simp)

theorem othersKept_markAbsent (h : OthersKept p s t) (c : AbsenceCause) : OthersKept p s (markAbsent p c t) :=
  othersKept_keep (othersKept_keep (othersKept_updShared (othersKept_updRegs h _) _) (mainKept_raise (.absence p c) _))
    (mainKept_diag p _)

theorem othersKept_setupConnect (h : OthersKept p s t) : OthersKept p s (setupConnect p t) :=
  othersKept_outWrite (othersKept_outWrite (othersKept_outWrite (othersKept_outWrite (othersKept_keep
    (othersKept_updRegs h _) (mainKept_tcpcReset p _)) _) _) _) _

theorem othersKept_setupOutputs (h : OthersKept p s t) : OthersKept p s (setupOutputs p t) :=
  othersKept_keep (othersKept_outWrite (othersKept_outWrite (othersKept_outWrite (othersKept_outWrite
    (othersKept_outWrite h _) _) _) _) _) (mainKept_diag p _)

theorem othersKept_setupPresent (h : OthersKept p s t) : OthersKept p s (setupPresent p t) := by
  have hf : OthersKept p s (setupFields p (setupConnect p t)) := by
    unfold setupFields
    exact othersKept_updShared (othersKept_updRegs (othersKept_setupConnect h) _) _
  rw [setupPresent_eq]
  exact othersKept_updRegs (othersKept_updShared (othersKept_setupOutputs hf) _) _

/-- `SETUP` of a port writes no global and nothing of the other port (R20, R121). -/
theorem othersKept_setup (p : Port) (s : State) : OthersKept p s (setup p s) := by
  have h1 := othersKept_keep (othersKept_vbusOff (othersKept_outWrite (othersKept_keep (othersKept_refl p s)
    (mainKept_diag p s)) (.indicator (diag p s).cfg.indicatorLevel))) (mainKept_point _)
  have h2 := othersKept_keep h1 (mainKept_point _)
  unfold setup setupIdentify
  dsimp only
  refine othersKept_updRegs ?_ _
  split_ifs
  · exact othersKept_markAbsent h1 _
  · exact othersKept_setupPresent h2
  · exact othersKept_markAbsent h2 _

/-- Port `p` of `t` is as `SETUP` in `s` leaves a present port, or as it leaves an absent one (R52). -/
structure SetupLeaves (p : Port) (s t : State) : Prop where
  present : (t.regs p).present = true → t.regs p = setUpRegs s.cfg ∧ t.out p = setUpOut s.cfg
  absent : (t.regs p).present = false → t.regs p = { s.regs p with present := false, setUp := true } ∧
    t.out p = { s.out p with indicator := s.cfg.indicatorLevel, vbus := .released }

/-- States that agree on the parameters and on the record and the outputs of the port. -/
theorem setupLeaves_congr (h : SetupLeaves p s t) (hc : v.cfg = s.cfg) (hvr : v.regs p = s.regs p)
    (hvo : v.out p = s.out p) (hr : u.regs p = t.regs p) (ho : u.out p = t.out p) : SetupLeaves p v u := by
  obtain ⟨hpres, habs⟩ := h
  constructor <;> rw [hr, ho, hc]
  · exact hpres
  · rwa [hvr, hvo]

theorem setupLeaves_setup (p : Port) (s : State) : SetupLeaves p s (setup p s) := by
  obtain ⟨v, hv, h | ⟨c, h⟩⟩ := setup_cases p s <;> rw [h]
  · have hcfg : v.cfg = s.cfg := (hv.boundary p).cfg
    constructor <;> simp [setupPresent_regs, setupPresent_out, hv.out, hcfg, setUpRegs, setUpOut]
  · constructor <;> simp [markAbsent_regs, markAbsent_out, hv.regs, hv.out]

/-! ### `SETUP` in a quiet environment with no line active -/

/-- What `SETUP` of port `p` leaves of the whole machine where it starts quiet, the line of the port inactive. -/
structure QuietSetup (p : Port) (s t : State) : Prop where
  quiet : Quiet t
  present : (t.regs p).present = true ↔ passesSetup s p
  pending : (t.shared p).pending = false
  irqEn : (t.shared p).irqEn = (t.regs p).present
  shared : ∀ q, q ≠ p → t.shared q = s.shared q
  env : ∀ q, q ≠ p → t.env q = s.env q

/-- With the line of the port inactive its `SETUP` makes no handler ready. -/
theorem quiet_setup (hq : Quiet s) (hline : ((setup p s).env p).line = false) (hs : (setup p s).sched = s.sched)
    (hr : (setup p s).resetReq = s.resetReq) (hsh : ∀ q, q ≠ p → (setup p s).shared q = s.shared q)
    (he : ∀ q, q ≠ p → (setup p s).env q = s.env q) : Quiet (setup p s) := by
  have hk := othersKept_setup p s
  refine ⟨⟨hs.trans (quiet_sched hq), hr.trans (quiet_resetReq hq), fun q => ?_⟩, fun q => ?_⟩
  · by_cases e : q = p
    · simp [irqReady, e, hline]
    · have hready := hq.1.2.2 q
      rwa [irqReady, running, hk.halt, State.live, hk.regs q e, hsh q e, he q e]
  · exact (sends_setup (D := (· = p)) rfl (sends_refl _ s)).duty (fun _ e => e ▸ hq.2 p) q (hq.2 q)

theorem quietSetup_setup (hq : Quiet s) (hn : (s.regs p).setUp = false) (hline : (s.env p).line = false) :
    QuietSetup p s (setup p s) := by
  by_cases hv : passesSetup s p
  · obtain ⟨t, hx, -, hregs, -, hown, hsh, hc, -⟩ := setupOfPresentPort s p hq hn hv
    obtain rfl := execSetup_next hx
    have hl : ((setup p s).env p).line = false := by rw [hc.own]; exact hline
    exact ⟨quiet_setup hq hl hc.sched hc.resetReq hsh hc.other, by simp [hregs, setUpRegs, hv], by rw [hown],
      by rw [hown, hregs]; rfl, hsh, hc.other⟩
  · obtain ⟨t, hx, -, hregs, -, hown, hb, -⟩ := setupOfAbsentPort s p hq hn hv
    obtain rfl := execSetup_next hx
    have hl : ((setup p s).env p).line = false := by rw [hb.env]; exact hline
    exact ⟨quiet_setup hq hl hb.sched hb.resetReq hb.shared fun q _ => hb.env q, by simp [hregs, hv], by rw [hown],
      by rw [hown, hregs], hb.shared, fun q _ => hb.env q⟩

/-! ### The entry -/

/-- The globals of the entry (R228). -/
def entryGlobals (s : State) : State := (s.setWdogArmed false).setHalt .running

/-- Before any `SETUP` a restart of the block makes no handler ready (R281). -/
theorem quiet_entryGlobals (hq : Quiet s) (hn : ∀ p, (s.regs p).setUp = false) : Quiet (entryGlobals s) :=
  quiet_congr hq rfl rfl (fun p => by rw [irqReady_of_not_setUp (hn p), irqReady_of_not_setUp (s := entryGlobals s) (hn p)])
    rfl (fun _ => rfl) fun _ => rfl

theorem setupLeaves_mainEntry (p : Port) (s : State) : SetupLeaves p s (mainEntry s) := by
  have k0 := othersKept_setup .p0 (entryGlobals s)
  have k1 := othersKept_setup .p1 (setup .p0 (entryGlobals s))
  have hne : Port.p0 ≠ .p1 := by decide
  cases p with
  | p0 => exact setupLeaves_congr (setupLeaves_setup .p0 (entryGlobals s)) rfl rfl rfl (k1.regs .p0 hne) (k1.out .p0 hne)
  | p1 =>
    exact setupLeaves_congr (setupLeaves_setup .p1 (setup .p0 (entryGlobals s))) k0.cfg.symm (k0.regs .p1 hne.symm).symm
      (k0.out .p1 hne.symm).symm rfl rfl

/-- In a quiet environment with no line active, each `SETUP` of the entry decides on what its port showed at the start. -/
theorem presence_mainEntry (hq : Quiet s) (hn : ∀ p, (s.regs p).setUp = false) (hline : ∀ p, (s.env p).line = false)
    (p : Port) : (((mainEntry s).regs p).present = true ↔ passesSetup s p) ∧
      ((mainEntry s).shared p).pending = false ∧ ((mainEntry s).shared p).irqEn = ((mainEntry s).regs p).present := by
  have k0 := othersKept_setup .p0 (entryGlobals s)
  have k1 := othersKept_setup .p1 (setup .p0 (entryGlobals s))
  have hne : Port.p0 ≠ .p1 := by decide
  have h0 := quietSetup_setup (p := .p0) (quiet_entryGlobals hq hn) (hn .p0) (hline .p0)
  have he1 : (setup .p0 (entryGlobals s)).env .p1 = s.env .p1 := h0.env .p1 hne.symm
  have h1 := quietSetup_setup (p := .p1) h0.quiet (by rw [k0.regs .p1 hne.symm]; exact hn .p1)
    (by rw [he1]; exact hline .p1)
  cases p with
  | p0 =>
    have hr : (mainEntry s).regs .p0 = (setup .p0 (entryGlobals s)).regs .p0 := k1.regs .p0 hne
    have hs : (mainEntry s).shared .p0 = (setup .p0 (entryGlobals s)).shared .p0 := h1.shared .p0 hne
    rw [hr, hs]
    exact ⟨h0.present, h0.pending, h0.irqEn⟩
  | p1 =>
    have hv : passesSetup (setup .p0 (entryGlobals s)) .p1 ↔ passesSetup s .p1 := by
      rw [passesSetup, passesSetup, he1, k0.cfg]
      rfl
    exact ⟨h1.present.trans hv, h1.pending, h1.irqEn⟩

end

/-- Settles O13: the two setups, each in every environment and in a quiet one; neither touches the other port. -/
theorem mainEntrySetsUpBothPorts : Obligations.MainEntrySetsUpBothPorts := by
  intro s hn ht
  have hsend := sends_mainEntry (D := fun _ => True) (fun _ => trivial) (sends_refl _ s)
  have hst := hostTakes_stalled (hsend.duty (fun p _ => ht p) .p0 (ht .p0))
  have k0 := othersKept_setup .p0 (entryGlobals s)
  have k1 := othersKept_setup .p1 (setup .p0 (entryGlobals s))
  exact ⟨mainEntry s, by rw [exec_mainEntry hn, stallOutcome_of_none hst], mainEntry_cfg s, k1.ret.trans k0.ret,
    k1.wdogArmed.trans k0.wdogArmed, k1.halt.trans k0.halt, mainEntry_pos s, deviceUp_mainEntry s,
    fun p => (setupLeaves_mainEntry p s).present, fun p => (setupLeaves_mainEntry p s).absent,
    fun hq => presence_mainEntry hq hn⟩

end Sys2Proof.Machine

/-! ## Runs of `MAIN` within a pass

`PassRun p s t` says of a run of `MAIN` that it moves the run loop nowhere, does not halt, meets no device reset where none
is coming, and leaves no more host bytes of port `p` than waited and the schedule has delivered. It is proved of every
primitive and so of every operation of a pass but the firmware-update command, which halts. -/

namespace Sys2Proof.Machine

/-- What waits on the host channel of port `p` and what the schedule can still append. -/
def hostLoad (p : Port) (s : State) : Nat := (s.env p).host.length + schedWeight s

/-- A run of `MAIN` from `s` to `t` within one part of a pass. -/
structure PassRun (p : Port) (s t : State) : Prop where
  pos : t.pos = s.pos
  halt : t.halt = s.halt
  noReset : NoReset s → NoReset t
  load : hostLoad p t ≤ hostLoad p s

section
variable {p q : Port} {s t u : State} {b : Byte}

/-! ### The schedule -/

theorem hostLoad_congr (he : (t.env p).host = (s.env p).host) (hs : t.sched = s.sched) : hostLoad p t = hostLoad p s := by
  rw [hostLoad, hostLoad, he, schedWeight_congr hs]

/-- A move appends to the host channel at most what it weighs (R66). -/
theorem applyMove_host (m : EnvMove) (s : State) :
    ((applyMove m s).env p).host.length ≤ (s.env p).host.length + moveWeight m := by
  cases m with
  | hostBytes q bs => by_cases e : p = q <;> simp [applyMove, hostActivity, moveWeight, e]
  | rxMsg q r => simp only [applyMove]; split_ifs <;> simp [apply_ite EnvPort.host]
  | uartByte q b => simp only [applyMove, uartReceive]; split_ifs <;> simp [ringPut]
  | reset c => simp only [applyMove]; split_ifs <;> simp
  | _ => simp [applyMove, hostActivity, apply_ite EnvPort.host]

theorem hostLoad_playMoves (ms : List EnvMove) (s : State) :
    hostLoad p (playMoves ms s) ≤ hostLoad p s + (ms.map moveWeight).sum := by
  induction ms generalizing s with
  | nil => exact Nat.le_add_right _ _
  | cons m ms ih =>
    unfold playMoves
    split_ifs
    · have hw : schedWeight (s.setSched ((m :: ms) :: s.sched)) = ((m :: ms).map moveWeight).sum + schedWeight s :=
        schedWeight_setSched_cons _ _ s
      simp only [hostLoad, env_setSched, hw]
      omega
    · obtain ⟨-, henv, hsched, -⟩ := takeIrqs_frame (applyMove m s) p
      have hm := applyMove_host (p := p) m s
      have hw := schedWeight_congr (hsched.trans (applyMove_frame s m [] p).2.1)
      have h := ih (takeIrqs (applyMove m s))
      simp only [hostLoad, henv, hw, List.map_cons, List.sum_cons] at h ⊢
      omega

theorem hostLoad_takeIrqs (p : Port) (s : State) : hostLoad p (takeIrqs s) = hostLoad p s := by
  obtain ⟨-, henv, hsched, -⟩ := takeIrqs_frame s p
  exact hostLoad_congr (by rw [henv]) hsched

theorem hostLoad_point (p : Port) (s : State) : hostLoad p (point s) ≤ hostLoad p s := by
  unfold point
  split_ifs
  · exact le_rfl
  · split
    next => exact (hostLoad_takeIrqs p s).le
    next ms rest hs =>
      have h := hostLoad_playMoves (p := p) ms (s.setSched rest)
      have hw := schedWeight_setSched_cons ms rest s
      rw [← hs] at hw
      change schedWeight s = _ at hw
      rw [hostLoad_takeIrqs]
      simp only [hostLoad, env_setSched] at h ⊢
      omega

/-! ### Primitives -/

theorem passRun_refl (p : Port) (s : State) : PassRun p s s := ⟨rfl, rfl, id, le_rfl⟩

theorem passRun_trans (h : PassRun p s t) (h' : PassRun p t u) : PassRun p s u :=
  ⟨h'.pos.trans h.pos, h'.halt.trans h.halt, h'.noReset ∘ h.noReset, h'.load.trans h.load⟩

/-- A continuation that leaves the schedule and the host channel of the port as they are. -/
theorem passRun_keep (h : PassRun p s t) (hp : u.pos = t.pos) (hh : u.halt = t.halt) (hr : u.resetReq = t.resetReq)
    (hs : u.sched = t.sched) (he : (u.env p).host = (t.env p).host) : PassRun p s u :=
  passRun_trans h ⟨hp, hh, fun hn => noReset_congr hn hr hs, (hostLoad_congr he hs).le⟩

theorem passRun_updRegs (h : PassRun p s t) (q : Port) (f : PortRegs → PortRegs) : PassRun p s (t.updRegs q f) :=
  passRun_keep h (by simp) (by simp) (by simp) (by simp) (by simp)
theorem passRun_updOut (h : PassRun p s t) (q : Port) (f : Outputs → Outputs) : PassRun p s (t.updOut q f) :=
  passRun_keep h (by simp) (by simp) (by simp) (by simp) (by simp)
theorem passRun_updShared (h : PassRun p s t) (q : Port) (f : Shared → Shared) : PassRun p s (t.updShared q f) :=
  passRun_keep h (by simp) (by simp) (by simp) (by simp) (by simp)
theorem passRun_updEnv (h : PassRun p s t) (q : Port) {f : EnvPort → EnvPort} (hf : ∀ e, (f e).host = e.host) :
    PassRun p s (t.updEnv q f) :=
  passRun_keep h (by simp) (by simp) (by simp) (by simp) (by rw [env_updEnv]; split_ifs <;> simp [hf])
theorem passRun_setTrace (h : PassRun p s t) (x : List Event) : PassRun p s (t.setTrace x) :=
  passRun_keep h rfl rfl rfl rfl rfl
theorem passRun_setFreeCtr (h : PassRun p s t) (x : Nat) : PassRun p s (t.setFreeCtr x) :=
  passRun_keep h rfl rfl rfl rfl rfl
theorem passRun_setCalls (h : PassRun p s t) (x : List BreakCall) : PassRun p s (t.setCalls x) :=
  passRun_keep h rfl rfl rfl rfl rfl
theorem passRun_setWdogArmed (h : PassRun p s t) (x : Bool) : PassRun p s (t.setWdogArmed x) :=
  passRun_keep h rfl rfl rfl rfl rfl

theorem passRun_point (h : PassRun p s t) : PassRun p s (point t) :=
  passRun_trans h ⟨by simp, by simp, noReset_point, hostLoad_point p t⟩

theorem passRun_effect (h : PassRun p s t) {f : State → State} (hf : PassRun p s (f t)) : PassRun p s (effect f t) := by
  unfold effect
  split_ifs <;> assumption

theorem passRun_emit (h : PassRun p s t) (e : Event) : PassRun p s (emit e t) := passRun_effect h (passRun_setTrace h _)
theorem passRun_delay (h : PassRun p s t) (q : Port) (d : DelayKind) : PassRun p s (delay q d t) :=
  passRun_emit (passRun_point h) _
theorem passRun_uartPut (h : PassRun p s t) (q : Port) (b : Byte) : PassRun p s (uartPut q b t) :=
  passRun_emit (passRun_point h) _
theorem passRun_outWrite (h : PassRun p s t) (q : Port) (w : OutWrite) : PassRun p s (outWrite q w t) :=
  passRun_emit (passRun_updOut (passRun_point h) q _) _
theorem passRun_outWritePair (h : PassRun p s t) (q : Port) (v w : OutWrite) : PassRun p s (outWritePair q v w t) :=
  passRun_emit (passRun_emit (passRun_updOut (passRun_point h) q _) _) _
theorem passRun_tcpcReset (h : PassRun p s t) (q : Port) : PassRun p s (tcpcReset q t) := by
  have hp := passRun_point h
  refine passRun_emit (passRun_effect hp (passRun_updEnv hp q ?_)) _
  exact fun _ => rfl
theorem passRun_intStatusReadClear (h : PassRun p s t) (q : Port) : PassRun p s (intStatusReadClear q t).2 := by
  have hp := passRun_point h
  simp only [intStatusReadClear]
  refine passRun_effect hp ?_
  exact passRun_updEnv hp q fun _ => rfl

theorem passRun_rxGet (h : PassRun p s t) (q : Port) : PassRun p s (rxGet q t).2 := by
  unfold rxGet
  split_ifs
  · exact h
  · split <;> dsimp only
    · exact h
    · exact passRun_updEnv h q fun _ => rfl

theorem passRun_ringGet (h : PassRun p s t) (q : Port) : PassRun p s (ringGet q t).2 := by
  simp only [ringGet]
  exact passRun_updShared h q _

theorem passRun_stall (h : PassRun p s t) (q : Port) : PassRun p s (stall q t) := passRun_keep h rfl rfl rfl rfl rfl

theorem passRun_sendBytes (h : PassRun p s t) (q : Port) (e : Event) (n : Nat) (ms : List (List EnvMove)) (k : Nat) :
    PassRun p s (sendBytes q e n ms k t) := by
  induction ms generalizing k t with
  | nil =>
    unfold sendBytes
    split_ifs
    · exact passRun_setTrace h _
    · exact passRun_setTrace h _
    · exact passRun_stall h q
  | cons m ms ih =>
    unfold sendBytes
    split_ifs
    · exact passRun_setTrace h _
    · exact ih (passRun_point h) _
    · exact passRun_setTrace h _
    · exact ih (passRun_point h) _

theorem passRun_hostSend (h : PassRun p s t) (q : Port) (e : Event) : PassRun p s (hostSend q e t) := by
  unfold hostSend
  dsimp only
  split_ifs
  · exact passRun_point h
  · exact passRun_sendBytes (passRun_point h) q e _ _ _

theorem passRun_logLine (h : PassRun p s t) (q : Port) (l : LogBody) : PassRun p s (logLine q l t) := by
  unfold logLine
  split_ifs
  · exact h
  · exact passRun_hostSend h q _

theorem passRun_diagLines (h : PassRun p s t) (q : Port) (ts : List (List Byte)) :
    PassRun p s (ts.foldl (fun s x => logLine q (.diag x) s) t) := by
  induction ts generalizing t with
  | nil => exact h
  | cons x ts ih => exact ih (passRun_logLine h q _)

theorem passRun_diag (h : PassRun p s t) (q : Port) : PassRun p s (diag q t) := by
  unfold diag
  split_ifs
  · exact passRun_diagLines (passRun_setFreeCtr h _) q _
  · exact h

theorem passRun_raise (h : PassRun p s t) (c : Condition) : PassRun p s (raise c t) := by
  cases c with
  | transientNoise q n => exact h
  | hardFailure q c => exact passRun_emit h _
  | operatorFatal c => exact passRun_emit h _
  | absence q c | protocolViolationMsg q m | protocolViolationVdm q m => exact passRun_logLine (passRun_emit h _) q _

/-- Every transmit operation of R150 to R163 is the optional `DIAG` lines and one `Tx`. -/
theorem passRun_diag_tx (h : PassRun p s t) (q : Port) (k : TxKind) (c : MsgCode) (o : Objs) :
    PassRun p s (tx q k c o (diag q t)) := by
  have hp := passRun_point (passRun_diag h q)
  refine passRun_emit ?_ _
  unfold drawRoles
  split
  · exact hp
  · exact passRun_setFreeCtr hp _

theorem passRun_diag_raise (h : PassRun p s t) (q : Port) (c : Condition) : PassRun p s (raise c (diag q t)) :=
  passRun_raise (passRun_diag h q) c

/-! ### Policy engine -/

theorem passRun_txVdmSerialRoute (h : PassRun p s t) (q : Port) : PassRun p s (txVdmSerialRoute q t) :=
  passRun_outWritePair (passRun_diag_tx h q _ _ _) q _ _

theorem passRun_vbusOff (h : PassRun p s t) (q : Port) : PassRun p s (vbusOff q t) :=
  passRun_outWrite (passRun_delay (passRun_outWrite (passRun_diag h q) q _) q _) q _

theorem passRun_disconnect (h : PassRun p s t) (q : Port) : PassRun p s (disconnect q t) :=
  passRun_updRegs (passRun_outWrite (passRun_outWrite (passRun_outWrite
    (passRun_vbusOff (passRun_diag h q) q) q _) q _) q _) q disconnectedRegs

theorem passRun_outWrite_if (h : PassRun p s t) (c : Bool) (q : Port) (w : OutWrite) :
    PassRun p s (if c then outWrite q w t else t) := by
  split_ifs
  · exact passRun_outWrite h q w
  · exact h

theorem passRun_attach (h : PassRun p s t) (q : Port) (cc : Nat × Nat) : PassRun p s (attach q cc t) := by
  have h1 := passRun_outWrite (passRun_outWrite (passRun_tcpcReset h q) q (.hdrRole .source)) q (.vconn false)
  have h2 := passRun_outWrite (passRun_updRegs h1 q fun r => { r with pol := selectPolarity cc }) q
    (.chipPol (chipPolOf (selectPolarity cc)))
  have h3 := passRun_outWrite (passRun_outWrite (passRun_outWrite_if h2 (wantVconn cc) q (.vconn true)) q (.rxEn true)) q
    (.vbus .on)
  exact passRun_diag_tx (passRun_updRegs h3 q _) q _ _ _

theorem passRun_onAttach (h : PassRun p s t) (q : Port) : PassRun p s (onAttach q t) := by
  have hp := passRun_point (passRun_diag h q)
  unfold onAttach
  dsimp only
  split_ifs
  · exact passRun_attach hp q _
  · exact passRun_raise hp _

theorem passRun_pollDisconnected (h : PassRun p s t) (q : Port) : PassRun p s (pollDisconnected q t) := by
  have hp := passRun_point (passRun_diag h q)
  unfold pollDisconnected
  dsimp only
  split_ifs
  · exact passRun_onAttach hp q
  · exact passRun_delay hp q _

theorem passRun_tickVbusOn (h : PassRun p s t) (q : Port) : PassRun p s (tickVbusOn q t) := by
  have hn := passRun_updRegs (passRun_diag h q) q fun r => { r with sct := r.sct + 1 }
  unfold tickVbusOn
  dsimp only
  split_ifs
  · exact passRun_updRegs (passRun_diag_tx (passRun_diag_tx hn q _ _ _) q _ _ _) q _
  · exact hn

theorem passRun_debounce (h : PassRun p s t) (q : Port) : PassRun p s (debounce q t) := by
  have hd := passRun_point (passRun_diag h q)
  have hn := passRun_updRegs hd q fun r => { r with deb := r.deb + 1 }
  unfold debounce
  dsimp only
  split_ifs
  · exact passRun_disconnect hn q
  · exact passRun_raise hn _
  · exact passRun_updRegs hd q _

theorem passRun_tickState (h : PassRun p s t) (q : Port) : PassRun p s (tickState q t) := by
  unfold tickState
  split
  next => exact passRun_pollDisconnected h q
  next => exact passRun_tickVbusOn h q
  next => exact passRun_updRegs (passRun_diag h q) q _
  all_goals exact h

theorem passRun_tick (h : PassRun p s t) (q : Port) : PassRun p s (tick q t) := by
  have hd := passRun_tickState (passRun_diag h q) q
  unfold tick
  dsimp only
  split_ifs
  · exact hd
  · exact passRun_debounce hd q

theorem passRun_onTxComplete (h : PassRun p s t) (q : Port) : PassRun p s (onTxComplete q t) := by
  have hd := passRun_diag h q
  unfold onTxComplete
  dsimp only
  split
  next => exact passRun_txVdmSerialRoute (passRun_updRegs hd q _) q
  next => exact passRun_updRegs (passRun_diag_tx hd q _ _ _) q _
  all_goals exact hd

/-! ### Messages -/

/-- A reply that advances the policy state (R142, R144, R158). -/
theorem passRun_reply (h : PassRun p s t) (q : Port) (k : TxKind) (c : MsgCode) (o : Objs) (x : PolicyState) :
    PassRun p s ((tx q k c o (diag q (diag q t))).updRegs q fun r => { r with ps := x }) :=
  passRun_updRegs (passRun_diag_tx (passRun_diag h q) q k c o) q _

theorem passRun_vdmDiscoverIdentityAck (h : PassRun p s t) (q : Port) (m : Msg) :
    PassRun p s (vdmDiscoverIdentityAck q m t) := by
  have hd := passRun_diag h q
  unfold vdmDiscoverIdentityAck
  dsimp only
  split_ifs
  · exact passRun_logLine (passRun_setFreeCtr hd _) q _
  · exact passRun_setFreeCtr hd _
  · exact hd

theorem passRun_rxVdm (h : PassRun p s t) (q : Port) (m : Msg) : PassRun p s (rxVdm q m t) := by
  have hd := passRun_diag h q
  unfold rxVdm
  dsimp only
  split
  next => exact passRun_reply hd q _ _ _ .ready
  next => exact passRun_vdmDiscoverIdentityAck hd q m
  next => exact passRun_diag_raise hd q _

theorem passRun_runRxOp (h : PassRun p s t) (q : Port) (o : RxOp) : PassRun p s (runRxOp q o t) := by
  cases o with
  | empty r => exact passRun_diag h q
  | sourceCap m | prSwap m | drSwap m => exact passRun_diag_tx (passRun_diag h q) q _ _ _
  | request m => exact passRun_reply h q _ _ _ .dfpAccept
  | vendorDefined m => exact passRun_rxVdm h q m
  | getSinkCap m => exact passRun_reply h q _ _ _ .ready
  | other m => exact passRun_diag_raise h q (.protocolViolationMsg q m)

theorem passRun_onMessage (h : PassRun p s t) (q : Port) (m : RxRecord) : PassRun p s (onMessage q m t) :=
  passRun_runRxOp (passRun_diag h q) q _

/-! ### Event dispatcher -/

theorem passRun_evVbusGood (h : PassRun p s t) (q : Port) : PassRun p s (evVbusGood q t) := by
  have hp := passRun_point (passRun_diag h q)
  unfold evVbusGood
  dsimp only
  split_ifs
  · exact passRun_diag_tx (passRun_diag_tx hp q _ _ _) q _ _ _
  · exact passRun_disconnect (passRun_raise hp _) q

theorem passRun_drainRxOnce (h : PassRun p s t) (hu : drainRxOnce q t = some u) : PassRun p s u := by
  have hg := passRun_rxGet (passRun_point (passRun_point h)) q
  unfold drainRxOnce at hu
  dsimp only at hu
  split_ifs at hu
  split at hu <;> cases hu
  next m v e => rw [e] at hg; exact passRun_onMessage hg q m
  next e => rw [e] at hg; exact hg

theorem passRun_drainRx (h : PassRun p s t) (q : Port) (n : Nat) : PassRun p s (drainRx q n t) := by
  induction n generalizing t with
  | zero => exact h
  | succ n ih =>
    unfold drainRx
    split
    next e => exact ih (passRun_drainRxOnce h e)
    next => exact passRun_point h

theorem passRun_runEvent (h : PassRun p s t) (q : Port) (k : EvKind) : PassRun p s (runEvent q k t) := by
  cases k with
  | vbusGood => exact passRun_evVbusGood h q
  | hardReset => exact passRun_disconnect (passRun_diag_raise h q _) q
  | txSuccess => exact passRun_onTxComplete (passRun_diag h q) q
  | msgRx => exact passRun_drainRx (passRun_diag h q) q _

theorem passRun_runEvents (h : PassRun p s t) (q : Port) (ks : List EvKind) : PassRun p s (runEvents q ks t) := by
  induction ks generalizing t with
  | nil => exact h
  | cons k ks ih => exact ih (passRun_runEvent h q k)

theorem passRun_service (h : PassRun p s t) (q : Port) : PassRun p s (service q t) :=
  passRun_updShared (passRun_diag (passRun_tick (passRun_runEvents (passRun_intStatusReadClear (passRun_diag h q) q) q _) q)
    q) q fun x => { x with irqEn := true }

/-! ### Multiplexer -/

/-- What every armed-mode operation starts with (R190, R205). -/
theorem passRun_diag_disarm (h : PassRun p s t) (q : Port) : PassRun p s (diag q (disarmEscape q t)) :=
  passRun_diag (passRun_updRegs h q _) q

theorem passRun_selectRoute (h : PassRun p s t) (q : Port) (r : Route) : PassRun p s (selectRoute q r t) :=
  passRun_diag_tx (passRun_updRegs (passRun_diag_disarm h q) q _) q _ _ _

/-- Every operation of a host byte but the one that halts (R226). -/
theorem passRun_runByteOp (h : PassRun p s t) (q : Port) {o : ByteOp} (ho : o ≠ .cmdFwUpdate) :
    PassRun p s (runByteOp q o t) := by
  have hd := passRun_diag_disarm h q
  cases o with
  | pass b => exact passRun_uartPut (passRun_diag h q) q b
  | escArm => exact passRun_updRegs (passRun_diag h q) q fun r => { r with esc := true }
  | escLiteral => exact passRun_uartPut hd q _
  | cmdRebootTarget | cmdDebugProbe => exact passRun_diag_tx hd q _ _ _
  | cmdSelfReset => exact passRun_raise (passRun_setWdogArmed hd true) (.operatorFatal .selfReset)
  | cmdFwUpdate => exact absurd rfl ho
  | cmdForceDisconnect => exact passRun_disconnect (passRun_updShared hd q fun x => { x with pending := true }) q
  | cmdToggleVerbose => exact passRun_diag (passRun_updRegs hd q fun r => { r with verbose := !r.verbose }) q
  | cmdRoute1 | cmdRoute2 => exact passRun_selectRoute h q _
  | cmdHelp => exact passRun_logLine hd q (.help (helpEntries (diag q (disarmEscape q t))))
  | cmdDrop b => exact hd

theorem passRun_drainRing (h : PassRun p s t) (q : Port) (n : Nat) : PassRun p s (drainRing q n t) := by
  induction n generalizing t with
  | zero => exact h
  | succ n ih =>
    have hg := passRun_ringGet (passRun_point h) q
    unfold drainRing
    split
    next u e => rw [e] at hg; exact passRun_diag hg q
    next b u e => rw [e] at hg; exact ih (passRun_hostSend (passRun_diag hg q) q _)

theorem passRun_drainToHost (h : PassRun p s t) (q : Port) : PassRun p s (drainToHost q t) :=
  passRun_drainRing (passRun_diag h q) q _

/-! ### The transport call -/

theorem passRun_deliverBreak (h : PassRun p s t) (c : BreakCall) : PassRun p s (deliverBreak c t) := by
  cases hl : t.live c.port with
  | true => rw [deliverBreak_of_live hl]; exact passRun_outWrite (passRun_diag h _) _ _
  | false => rwa [deliverBreak_of_not_live hl]

theorem passRun_deliverCalls (h : PassRun p s t) (n : Nat) : PassRun p s (deliverCalls n t) := by
  induction n generalizing t with
  | zero => exact h
  | succ n ih =>
    unfold deliverCalls
    split_ifs
    · exact h
    · split
      · exact h
      · exact ih (passRun_deliverBreak (passRun_setCalls h _) _)

theorem passRun_transportService (h : PassRun p s t) : PassRun p s (transportService t) :=
  passRun_deliverCalls (passRun_point h) _

end

end Sys2Proof.Machine

/-! ## The position of the run loop, which no primitive reads

A step moves the run loop past the pump before it drains the ring, `RUN_PASS` after it: the two commute. -/

namespace Sys2Proof.Machine

section
variable {s t : State} {p : Port}

theorem updShared_setPos (s : State) (p : Port) (f : Shared → Shared) (x : MainPos) :
    (s.setPos x).updShared p f = (s.updShared p f).setPos x := by cases p <;> rfl

theorem updEnv_setPos (s : State) (p : Port) (f : EnvPort → EnvPort) (x : MainPos) :
    (s.setPos x).updEnv p f = (s.updEnv p f).setPos x := by cases p <;> rfl

theorem takeChipIrq_setPos (p : Port) (s : State) (x : MainPos) :
    takeChipIrq p (s.setPos x) = (takeChipIrq p s).setPos x := by cases p <;> rfl

theorem irqReady_setPos (s : State) (x : MainPos) (p : Port) : irqReady (s.setPos x) p = irqReady s p := rfl

theorem chipIrq_setPos (s : State) (x : MainPos) : chipIrq (s.setPos x) = (chipIrq s).setPos x := by
  unfold chipIrq
  rw [irqReady_setPos, irqReady_setPos]
  split_ifs
  · exact takeChipIrq_setPos _ (s.setFreeCtr (s.freeCtr + 1)) x
  · exact takeChipIrq_setPos _ s x
  · exact takeChipIrq_setPos _ s x
  · rfl

theorem takeIrqs_setPos (s : State) (x : MainPos) : takeIrqs (s.setPos x) = (takeIrqs s).setPos x := by
  rw [takeIrqs, chipIrq_setPos, chipIrq_setPos, takeIrqs]

theorem uartReceive_setPos (p : Port) (b : Byte) (s : State) (x : MainPos) :
    uartReceive p b (s.setPos x) = (uartReceive p b s).setPos x := by
  have hc : (running (s.setPos x) && (s.setPos x).live p) = (running s && s.live p) := rfl
  unfold uartReceive
  rw [hc]
  split_ifs
  · exact congrArg (·.setWake true) (updShared_setPos s p _ x)
  · rfl

theorem resetEnabled_setPos (s : State) (c : ResetCause) (x : MainPos) :
    resetEnabled (s.setPos x) c = resetEnabled s c := by cases c <;> rfl

theorem applyMove_setPos (m : EnvMove) (s : State) (x : MainPos) :
    applyMove m (s.setPos x) = (applyMove m s).setPos x := by
  cases m with
  | rxMsg p r =>
    simp only [applyMove, out_setPos, updEnv_setPos]
    split_ifs <;> rfl
  | uartByte p b => exact uartReceive_setPos p b s x
  | reset c =>
    rw [applyMove, applyMove, resetEnabled_setPos]
    split_ifs <;> rfl
  | breakCall c => rfl
  | line p | latch p | cc p | vbus p | busLow p | chipReg p | afterReset p | hostBytes p | connect p | takes p =>
    cases p <;> rfl

theorem playMoves_setPos (ms : List EnvMove) (s : State) (x : MainPos) :
    playMoves ms (s.setPos x) = (playMoves ms s).setPos x := by
  induction ms generalizing s with
  | nil => rfl
  | cons m ms ih =>
    unfold playMoves
    rw [setPos_resetReq, applyMove_setPos, takeIrqs_setPos, ih]
    split_ifs <;> rfl

theorem point_setPos (s : State) (x : MainPos) : point (s.setPos x) = (point s).setPos x := by
  unfold point
  rw [setPos_resetReq, setPos_sched]
  split_ifs
  · rfl
  · split
    next => exact takeIrqs_setPos s x
    next ms rest _ =>
      rw [← takeIrqs_setPos, ← playMoves_setPos]
      rfl

theorem sendBytes_setPos (p : Port) (e : Event) (n : Nat) (ms : List (List EnvMove)) (k : Nat) (s : State) (x : MainPos) :
    sendBytes p e n ms k (s.setPos x) = (sendBytes p e n ms k s).setPos x := by
  induction ms generalizing k s with
  | nil =>
    unfold sendBytes
    rw [setPos_resetReq, env_setPos]
    split_ifs <;> rfl
  | cons m ms ih =>
    unfold sendBytes
    rw [setPos_resetReq, env_setPos, point_setPos, ih, ih]
    split_ifs <;> rfl

theorem hostSend_setPos (p : Port) (e : Event) (s : State) (x : MainPos) :
    hostSend p e (s.setPos x) = (hostSend p e s).setPos x := by
  unfold hostSend
  simp only [point_setPos, setPos_resetReq, setPos_cfg, setPos_sched, sendBytes_setPos]
  split_ifs <;> rfl

theorem logLine_setPos (p : Port) (l : LogBody) (s : State) (x : MainPos) :
    logLine p l (s.setPos x) = (logLine p l s).setPos x := by
  unfold logLine
  rw [regs_setPos, hostSend_setPos]
  split_ifs <;> rfl

theorem diagLines_setPos (p : Port) (ts : List (List Byte)) (s : State) (x : MainPos) :
    ts.foldl (fun s l => logLine p (.diag l) s) (s.setPos x) =
      (ts.foldl (fun s l => logLine p (.diag l) s) s).setPos x := by
  induction ts generalizing s with
  | nil => rfl
  | cons l ts ih => rw [List.foldl_cons, List.foldl_cons, logLine_setPos, ih]

theorem diag_setPos (p : Port) (s : State) (x : MainPos) : diag p (s.setPos x) = (diag p s).setPos x := by
  unfold diag
  rw [regs_setPos]
  split_ifs
  · exact diagLines_setPos p _ (s.setFreeCtr (s.freeCtr + 1)) x
  · rfl

theorem ringGet_setPos (p : Port) (s : State) (x : MainPos) :
    ringGet p (s.setPos x) = ((ringGet p s).1, (ringGet p s).2.setPos x) := by cases p <;> rfl

theorem drainRing_setPos (p : Port) (n : Nat) (s : State) (x : MainPos) :
    drainRing p n (s.setPos x) = (drainRing p n s).setPos x := by
  induction n generalizing s with
  | zero => rfl
  | succ n ih =>
    rw [drainRing, drainRing, point_setPos, ringGet_setPos]
    rcases ringGet p (point s) with ⟨_ | b, t⟩
    · exact diag_setPos p t x
    · dsimp only
      rw [diag_setPos, hostSend_setPos, ih]

/-- `DRAIN_TO_HOST` does not read where the run loop stands. -/
theorem drainToHost_setPos (p : Port) (s : State) (x : MainPos) :
    drainToHost p (s.setPos x) = (drainToHost p s).setPos x := by
  rw [drainToHost, diag_setPos]
  exact drainRing_setPos p _ _ x

end

end Sys2Proof.Machine

/-! ## A pass is its steps (R220, R221, R226)

The pass is followed part by part, from its end: `restOfPass p` is what is left of it after the turn of port `p`, and each
lemma says that from where a part begins the machine's own steps make that part and all the rest. -/

namespace Sys2Proof.Machine

/-- `MAIN` is within a pass: the block runs, no device reset is coming, and the environment does its duty (R229). -/
structure Going (s : State) : Prop where
  running : running s = true
  noReset : NoReset s
  takes : ∀ p, HostTakes p s

/-- The end of the turn of port `p`, unless the block has halted (R220, R226). -/
def finishTurn (p : Port) (s : State) : State := if running s then s.setPos (afterTurn p) else s

/-- What is left of a pass after the turn of port `p`. -/
def restOfPass : Port → State → State
  | .p0, s => if running s then (let t := portPass .p1 s; if running t then endPass t else t) else s
  | .p1, s => if running s then endPass s else s

section
variable {p : Port} {s t u : State} {b : Byte}

theorem runPass_eq (s : State) : runPass s = restOfPass .p0 (portPass .p0 s) := rfl

theorem restOfPass_p0 (h : running s = true) : restOfPass .p0 s = restOfPass .p1 (portPass .p1 s) := if_pos h

theorem restOfPass_p1 (h : running s = true) : restOfPass .p1 s = endPass s := if_pos h

theorem restOfPass_of_halted (p : Port) (h : running s = false) : restOfPass p s = s := by
  cases p <;> exact if_neg (by simp [h])

theorem portPass_of_live (h : s.live p = true) : portPass p s = finishTurn p (muxPump p
    (if (takePending p s).1 then service p (takePending p s).2 else (takePending p s).2)) := if_pos h

theorem portPass_of_not_live (h : s.live p = false) : portPass p s = s.setPos (afterTurn p) := if_neg (by simp [h])

/-! ### What keeps a pass going -/

theorem going_resetReq (h : Going s) : s.resetReq = none := h.noReset.1

theorem going_stalled (h : Going s) : s.stalled = none := hostTakes_stalled (h.takes .p0)

theorem going_of_passRun (h : PassRun p s t) (hs : SendsTo (fun _ => True) s t) (hg : Going s) : Going t where
  running := by rw [running, h.halt]; exact hg.running
  noReset := h.noReset hg.noReset
  takes q := hs.duty (fun r _ => hg.takes r) q (hg.takes q)

theorem going_setPos (h : Going s) (x : MainPos) : Going (s.setPos x) :=
  ⟨h.running, h.noReset, fun p => hostTakes_setPos (h.takes p) x⟩

theorem going_setWake (h : Going s) (x : Bool) : Going (s.setWake x) :=
  ⟨h.running, h.noReset, fun p => hostTakes_setWake (h.takes p) x⟩

theorem going_withHost (h : Going s) (p : Port) (bs : List Byte) : Going (withHost p bs s) where
  running := by simpa using h.running
  noReset := noReset_congr h.noReset (by simp [withHost]) (by simp [withHost])
  takes q := hostTakes_updEnv (h.takes q) p _ (fun _ => rfl) fun _ => rfl

theorem going_point (h : Going s) : Going (point s) :=
  going_of_passRun (passRun_point (passRun_refl .p0 s)) (sends_point (sends_refl _ s)) h

theorem going_takePending (h : Going s) (p : Port) : Going (takePending p s).2 :=
  going_setPos (going_of_passRun (passRun_updShared (passRun_point (passRun_refl p s)) p _)
    (sends_updShared (sends_point (sends_refl _ s)) p _) h) (.pump p)

theorem going_service (h : Going s) (p : Port) : Going (service p s) :=
  going_of_passRun (passRun_service (passRun_refl p s) p) (sends_service trivial (sends_refl _ s)) h

theorem going_drainToHost (h : Going s) (p : Port) : Going (drainToHost p s) :=
  going_of_passRun (passRun_drainToHost (passRun_refl p s) p) (sends_drainToHost trivial (sends_refl _ s)) h

theorem going_transportService (h : Going s) : Going (transportService s) :=
  going_of_passRun (passRun_transportService (passRun_refl .p0 s))
    (sends_transportService (fun _ => trivial) (sends_refl _ s)) h

theorem going_idleTest (h : Going s) : Going (idleTest s) := going_setPos (going_setWake (going_point h) _) _

theorem going_idleWait (h : Going s) : Going (idleWait s) := by
  have hp := going_point h
  unfold idleWait
  dsimp only
  split_ifs
  · exact going_setPos (going_setWake hp _) _
  · exact going_setPos hp _

/-- The firmware-update command halts the block and brings no device reset (R197, R226). -/
theorem cmdFwUpdate_halts (hn : NoReset s) (p : Port) :
    running (cmdFwUpdate p s) = false ∧ NoReset (cmdFwUpdate p s) := by
  have hd := passRun_diag_disarm (passRun_refl p s) p
  have hr : NoReset ((diag p (disarmEscape p s)).setHalt .fwUpdate) := noReset_congr (hd.noReset hn) rfl rfl
  exact ⟨by simp [cmdFwUpdate, running], (passRun_raise (passRun_refl p _) (.operatorFatal .fwUpdate)).noReset hr⟩

/-! ### Sequences of steps that make a pass -/

theorem run_succ (h : step s = .next t) (k : Nat) : Host.Core.run core (k + 1) s = Host.Core.run core k t := by
  have hc : core.step s = .next t := h
  simp only [Host.Core.run, hc]

/-- The last step of a pass that does not end in the idle wait. -/
theorem onePass_last (h : step s = .next t) (ht : AtPassEnd t) (hi : t.pos = .idle → running t = false) :
    OnePass s t := by
  refine ⟨1, Nat.one_pos, run_succ h 0, ht, fun j h0 h1 => by omega, fun hpos hrun => ?_⟩
  simp [hi hpos] at hrun

/-- The last two steps of a pass that ends with the idle wait. -/
theorem onePass_wait (h : step s = .next u) (hrun : running u = true) (hpos : u.pos = .idle) (h' : step u = .next t)
    (ht : AtPassEnd t) : OnePass s t := by
  have hu : Host.Core.run core 1 s = .next u := run_succ h 0
  refine ⟨2, Nat.two_pos, (run_succ h 1).trans (run_succ h' 0), ht, fun j h0 h1 => ?_, fun _ _ => ⟨u, hu, hpos⟩⟩
  obtain rfl : j = 1 := by omega
  exact ⟨u, hu, hrun, by rw [hpos]; nofun, fun _ => rfl⟩

/-- A step into the middle of a pass, before the rest of it. -/
theorem onePass_cons (h : step s = .next u) (hrun : running u = true) (hturn : u.pos ≠ .turn .p0)
    (hidle : u.pos ≠ .idle) (hu : OnePass u t) : OnePass s t := by
  obtain ⟨k, hk, hend, ht, hbetween, hwait⟩ := hu
  refine ⟨k + 1, Nat.succ_pos k, (run_succ h k).trans hend, ht, fun j h0 h1 => ?_, fun hpos hr => ?_⟩
  · obtain ⟨j, rfl⟩ : ∃ i, j = i + 1 := ⟨j - 1, by omega⟩
    obtain rfl | hj := Nat.eq_zero_or_pos j
    · exact ⟨u, run_succ h 0, hrun, hturn, fun e => absurd e hidle⟩
    · obtain ⟨v, hv, hvrun, hvturn, hvidle⟩ := hbetween j hj (by omega)
      exact ⟨v, (run_succ h j).trans hv, hvrun, hvturn, fun e => by rw [hvidle e]⟩
  · obtain ⟨v, hv, hvpos⟩ := hwait hpos hr
    obtain ⟨k, rfl⟩ : ∃ i, k = i + 1 := ⟨k - 1, by omega⟩
    exact ⟨v, (run_succ h k).trans hv, hvpos⟩

/-! ### The steps of a pass, one by one -/

/-- A step that completes its operation with no device reset coming. -/
theorem step_of_exec {i : Instr} (hf : fetch s = (some i, t)) (hx : exec i t = .next u) (hr : u.resetReq = none) :
    step s = .next u := by
  rw [step_of_fetch_some hf, hx]
  simp [settleOutcome, settle, hr]

theorem step_absent (hg : Going s) (hpos : s.pos = .turn p) (hl : s.live p = false) :
    step s = .next (s.setPos (afterTurn p)) :=
  step_of_fetch_none (fetch_absent (going_resetReq hg) hg.running (.inl hpos) hl)
    (going_resetReq (going_setPos hg _))

@[simp] theorem takePending_live (p q : Port) (s : State) : (takePending p s).2.live q = s.live q := by
  simp [takePending, clearPending, State.live]

/-- The step of a live port's turn: the test-and-clear, and the service if the flag was set (R220). -/
theorem step_turn (hg : Going s) (hpos : s.pos = .turn p) (hl : s.live p = true) :
    step s = .next (if (takePending p s).1 then service p (takePending p s).2 else (takePending p s).2) := by
  have hf := fetch_turn (going_resetReq hg) hg.running hpos hl
  have ht := going_takePending hg p
  split_ifs at hf ⊢
  · have hs := going_service ht p
    exact step_of_exec hf (onPort_live (by simpa using hl) (service p) (going_stalled hs)) (going_resetReq hs)
  · exact step_of_fetch_none hf (going_resetReq ht)

/-- Where that step leads: to the pump of the port (R220). -/
theorem serviced_going (hg : Going s) (hl : s.live p = true) {u : State}
    (hu : u = if (takePending p s).1 then service p (takePending p s).2 else (takePending p s).2) :
    Going u ∧ u.pos = .pump p ∧ u.live p = true := by
  have ht := going_takePending hg p
  have htl : (takePending p s).2.live p = true := by simpa using hl
  subst hu
  split_ifs
  · exact ⟨going_service ht p, (passRun_service (passRun_refl p _) p).pos,
      mainStep_live (mainStep_service (W := fun _ => [.policy, .attach]) (by simp) (by simp) (mainStep_refl _ _) htl) htl⟩
  · exact ⟨ht, rfl, htl⟩

/-- The step of a pump that finds no byte drains the ring and ends the turn (R190, R211). -/
theorem step_pump_drain (hg : Going s) (hpos : s.pos = .pump p) (hl : s.live p = true)
    (hget : hostTryRecv p (point s) = (none, point s)) :
    step s = .next ((drainToHost p (point s)).setPos (afterTurn p)) := by
  have hf := fetch_pump_drain (going_resetReq hg) hg.running hpos hl hget
  have hd := going_drainToHost (going_setPos (going_point hg) (afterTurn p)) p
  rw [← drainToHost_setPos]
  exact step_of_exec hf (onPort_live (by simpa [State.live] using hl) (drainToHost p) (going_stalled hd))
    (going_resetReq hd)

/-- The step of a pump that finds a byte runs the operation of the byte (R190). -/
theorem step_pump_byte (hg : Going s) (hpos : s.pos = .pump p) (hl : s.live p = true) (ht : Going t)
    (htl : t.live p = true) (hget : hostTryRecv p (point s) = (some b, t)) (hr : (muxByte p b t).resetReq = none) :
    step s = .next (muxByte p b t) := by
  have hf := fetch_pump_byte (going_resetReq hg) hg.running hpos hl hget
  exact step_of_exec hf (exec_runByteOp htl (ht.takes p) _) hr


/-! ### The parts of a pass, from the last -/

theorem afterTurn_middle (p : Port) : afterTurn p ≠ .turn .p0 ∧ afterTurn p ≠ .idle := by cases p <;> decide

theorem idleTest_pos (s : State) : (idleTest s).pos = passStart ∨ (idleTest s).pos = .idle := by
  unfold idleTest
  dsimp only
  split_ifs
  · exact .inl rfl
  · exact .inr rfl

/-- The idle test and, if it says so, the idle wait (R220, R222). -/
theorem onePass_idleTest (hg : Going s) (hpos : s.pos = .idleTest) :
    OnePass s (if (idleTest s).pos = .idle then idleWait (idleTest s) else idleTest s) := by
  have ht := going_idleTest hg
  have hstep : step s = .next (idleTest s) :=
    step_of_fetch_none (fetch_idleTest (going_resetReq hg) hg.running hpos) (going_resetReq ht)
  split_ifs with hidle
  · have hw := going_idleWait ht
    have hwait : step (idleTest s) = .next (idleWait (idleTest s)) :=
      step_of_exec (fetch_idle (going_resetReq ht) ht.running hidle) rfl (going_resetReq hw)
    refine onePass_wait hstep ht.running hidle hwait ?_
    exact (idleWait_pos _).elim (fun e => .inr (.inl e)) .inl
  · exact onePass_last hstep (.inl ((idleTest_pos s).resolve_right hidle)) fun e => absurd e hidle

/-- From the transport call on (R220, R224). -/
theorem onePass_endPass (hg : Going s) (hpos : s.pos = .transport) : OnePass s (endPass s) := by
  have ht := going_transportService (going_setPos hg .idleTest)
  have hpos' : (transportService (s.setPos .idleTest)).pos = .idleTest := (breaksOnly_transportService _).pos
  have hstep : step s = .next (transportService (s.setPos .idleTest)) :=
    step_of_exec (fetch_transport (going_resetReq hg) hg.running hpos) (stallOutcome_of_none (going_stalled ht))
      (going_resetReq ht)
  exact onePass_cons hstep ht.running (by rw [hpos']; nofun) (by rw [hpos']; nofun) (onePass_idleTest ht hpos')

/-- From the end of the turn of port `p` on, the steps of the machine make the rest of the pass. -/
def RestFollows (p : Port) : Prop := ∀ u, Going u → u.pos = afterTurn p → OnePass u (restOfPass p u)

/-- The operation of a byte, other than the firmware-update command, keeps the pass going (R190, R226). -/
theorem muxByte_going (hg : Going s) (ho : decodeByte (s.regs p).esc b ≠ .cmdFwUpdate) :
    Going (muxByte p b s) ∧ PassRun p s (muxByte p b s) ∧ (muxByte p b s).live p = s.live p := by
  have hr : PassRun p s (muxByte p b s) := passRun_runByteOp (passRun_refl p s) p ho
  obtain ⟨es, hm, -, -⟩ := mainRun_runByteOp p (decodeByte (s.regs p).esc b) s
  obtain ⟨hlive, -⟩ := byteWritten_frame p s (decodeByte (s.regs p).esc b)
  exact ⟨going_of_passRun hr (sends_runByteOp trivial (sends_refl _ s) _) hg, hr,
    by rw [← hlive, State.live, muxByte, hm.kept.regs, State.live]⟩

theorem hostLoad_withHost {bs : List Byte} (h : (s.env p).host = b :: bs) :
    hostLoad p (withHost p bs s) < hostLoad p s := by
  have hw : schedWeight (withHost p bs s) = schedWeight s := schedWeight_congr (by simp [withHost])
  rw [hostLoad, hostLoad, hw, h, List.length_cons]
  simp

/-- The drain at the end of a pump, and the rest of the pass. -/
theorem onePass_pump_drain (hrest : RestFollows p) (n : Nat) (hg : Going s) (hpos : s.pos = .pump p) (hl : s.live p = true)
    (hget : hostTryRecv p (point s) = (none, point s)) :
    OnePass s (restOfPass p (finishTurn p (pumpLoop p (n + 1) s))) := by
  have hd := going_drainToHost (going_point hg) p
  have hu := going_setPos hd (afterTurn p)
  obtain ⟨hturn, hidle⟩ := afterTurn_middle p
  have e : finishTurn p (pumpLoop p (n + 1) s) = (drainToHost p (point s)).setPos (afterTurn p) := by
    rw [pumpLoop, hget]
    exact if_pos hd.running
  rw [e]
  exact onePass_cons (step_pump_drain hg hpos hl hget) hu.running hturn hidle (hrest _ hu rfl)

/-- The operation of one byte of a pump, before what follows it, if it does not halt the block. -/
theorem onePass_pump_byte (n : Nat) (hg : Going s) (hpos : s.pos = .pump p) (hl : s.live p = true)
    (hget : hostTryRecv p (point s) = (some b, t)) (ht : Going t) (htl : t.live p = true) (htpos : t.pos = .pump p)
    (hnext : ∀ v, Going v → v.pos = .pump p → v.live p = true → hostLoad p v ≤ hostLoad p t →
      OnePass v (restOfPass p (finishTurn p (pumpLoop p n v)))) :
    OnePass s (restOfPass p (finishTurn p (pumpLoop p (n + 1) s))) := by
  have e : pumpLoop p (n + 1) s = if running (muxByte p b t) then pumpLoop p n (muxByte p b t) else muxByte p b t := by
    rw [pumpLoop, hget]
  have hstep := step_pump_byte hg hpos hl ht htl hget
  by_cases ho : decodeByte (t.regs p).esc b = .cmdFwUpdate
  · have hm : muxByte p b t = cmdFwUpdate p t := by rw [muxByte, ho]; rfl
    obtain ⟨hhalt, hreset, -⟩ := cmdFwUpdate_halts ht.noReset p
    rw [← hm] at hhalt hreset
    rw [e, if_neg (by simp [hhalt]), finishTurn, if_neg (by simp [hhalt]), restOfPass_of_halted p hhalt]
    exact onePass_last (hstep hreset) (.inr (.inr hhalt)) fun _ => hhalt
  · obtain ⟨hv, hrun, hlive⟩ := muxByte_going ht ho
    have hvpos := hrun.pos.trans htpos
    rw [e, if_pos hv.running]
    exact onePass_cons (hstep (going_resetReq hv)) hv.running (by rw [hvpos]; nofun) (by rw [hvpos]; nofun)
      (hnext _ hv hvpos (hlive.trans htl) hrun.load)

/-- The pump of a port and the rest of the pass: with a bound above what waits and can still be delivered, one step per
byte, and one for the drain (assumption log 23). -/
theorem onePass_pumpLoop (hrest : RestFollows p) (n : Nat) (hg : Going s) (hpos : s.pos = .pump p) (hl : s.live p = true)
    (hn : hostLoad p s < n) : OnePass s (restOfPass p (finishTurn p (pumpLoop p n s))) := by
  induction n generalizing s with
  | zero => exact absurd hn (Nat.not_lt_zero _)
  | succ n ih =>
    have hgp := going_point hg
    cases hhost : ((point s).env p).host with
    | nil => exact onePass_pump_drain hrest n hg hpos hl (hostTryRecv_of_nil hhost)
    | cons b bs =>
      have hload := (hostLoad_withHost hhost).trans_le (hostLoad_point p s)
      exact onePass_pump_byte n hg hpos hl (hostTryRecv_of_cons (going_resetReq hgp) hhost) (going_withHost hgp p bs)
        (by simpa using hl) (by simpa [withHost] using hpos) fun v hv hvpos hvl hvload => ih hv hvpos hvl (by omega)

/-- The turn of a port and the rest of the pass (R220). -/
theorem onePass_portPass (hrest : RestFollows p) (hg : Going s) (hpos : s.pos = .turn p) :
    OnePass s (restOfPass p (portPass p s)) := by
  cases hl : s.live p with
  | false =>
    have hu := going_setPos hg (afterTurn p)
    obtain ⟨hturn, hidle⟩ := afterTurn_middle p
    rw [portPass_of_not_live hl]
    exact onePass_cons (step_absent hg hpos hl) hu.running hturn hidle (hrest _ hu rfl)
  | true =>
    have hstep := step_turn hg hpos hl
    rw [portPass_of_live hl]
    obtain ⟨hu, hupos, hul⟩ := serviced_going hg hl rfl
    exact onePass_cons hstep hu.running (by rw [hupos]; nofun) (by rw [hupos]; nofun)
      (onePass_pumpLoop hrest _ hu hupos hul (Nat.lt_succ_self _))

theorem restFollows (p : Port) : RestFollows p := by
  have h1 : RestFollows .p1 := fun u hu hpos => by
    rw [restOfPass_p1 hu.running]
    exact onePass_endPass hu hpos
  cases p with
  | p0 =>
    intro u hu hpos
    rw [restOfPass_p0 hu.running]
    exact onePass_portPass h1 hu hpos
  | p1 => exact h1

end

/-- Settles O9: the turn of port 0 and the rest, part by part; that the pass completes is the duty kept to its end. -/
theorem passIsItsSteps : Obligations.PassIsItsSteps := by
  intro s hup ht
  have hsend := sends_runPass (D := fun _ => True) (fun _ => trivial) (sends_refl _ s)
  have hst := hostTakes_stalled (hsend.duty (fun p _ => ht p) .p0 (ht .p0))
  refine ⟨runPass s, by simp [exec, execRunPass, hup .p0, hup .p1, stallOutcome_of_none hst], fun hrun hpos hr hm => ?_⟩
  rw [runPass_eq]
  exact onePass_portPass (restFollows .p0) ⟨hrun, ⟨hr, hm⟩, ht⟩ hpos

end Sys2Proof.Machine

/-! # The exceptions family: the device reset (R50, R265, R280, R281) -/

namespace Sys2Proof.Machine

section

variable {s : State} {c : ResetCause}

/-! ## When a device reset is taken -/

/-- Power-on needs nothing, the watchdog its arming (R265). -/
theorem resetEnabled_iff : resetEnabled s c = true ↔ c = .powerOn ∨ s.wdogArmed = true := by
  cases c <;> simp [resetEnabled]

theorem exec_deviceReset_of_enabled (h : resetEnabled s c = true) : exec (.deviceReset c) s = .next (resetDevice s) :=
  if_pos h

theorem exec_deviceReset_of_not_enabled (h : resetEnabled s c = false) : exec (.deviceReset c) s = .next s :=
  if_neg (Bool.eq_false_iff.mp h)

/-! ## What it loses and what it keeps -/

theorem port_resetDevice (s : State) (p : Port) :
    (resetDevice s).port p = resetPort (ringSlots s.cfg) (s.port p) := by
  cases p <;> rfl

@[simp] theorem regs_resetDevice (s : State) (p : Port) : (resetDevice s).regs p = PortRegs.reset :=
  congrArg PortState.regs (port_resetDevice s p)

@[simp] theorem out_resetDevice (s : State) (p : Port) : (resetDevice s).out p = Outputs.reset :=
  congrArg PortState.out (port_resetDevice s p)

@[simp] theorem shared_resetDevice (s : State) (p : Port) :
    (resetDevice s).shared p = Shared.reset (ringSlots s.cfg) :=
  congrArg PortState.shared (port_resetDevice s p)

@[simp] theorem env_resetDevice (s : State) (p : Port) : (resetDevice s).env p = s.env p :=
  (congrArg PortState.env (port_resetDevice s p)).trans rfl

end

/-- Settles O55: an enabled reset ends in `resetDevice s`, whose port records are those of `port_resetDevice` and whose
other fields are as its definition sets them. -/
theorem deviceResetLosesBlockState : Obligations.DeviceResetLosesBlockState := by
  intro s c
  constructor
  · intro enabled
    have taken := exec_deviceReset_of_enabled (resetEnabled_iff.mpr enabled)
    refine ⟨resetDevice s, taken, rfl, rfl, rfl, fun p => ?_, rfl, rfl, rfl, rfl, rfl, rfl, rfl, rfl⟩
    have disabled : ((resetDevice s).shared p).irqEn = false := by rw [shared_resetDevice]; rfl
    have unpended : ((resetDevice s).shared p).pending = false := by rw [shared_resetDevice]; rfl
    exact ⟨regs_resetDevice s p, out_resetDevice s p, shared_resetDevice s p, disabled, unpended, env_resetDevice s p⟩
  · rintro rfl unarmed
    exact exec_deviceReset_of_not_enabled unarmed

end Sys2Proof.Machine

/-! # The reset and hazards family: what is armed right after reset, the two refusals, and the one fault -/

/-! ## Right after reset (R228, R280, R281) -/

namespace Sys2Proof.Machine

/-- Settles O1: `MAIN_ENTRY` is selected by `fetch_entry`; that no port is set up is the base case of `Started`, and the
invariant holds every line of such a port unarmed. -/
theorem resetLeavesNothingArmed : Obligations.ResetLeavesNothingArmed := by
  obtain ⟨⟨-, ports⟩, started⟩ := invariantHoldsAtReset
  have unset : ∀ p, (State.reset.regs p).setUp = false := started.1 rfl
  exact ⟨rfl, rfl, rfl, fetch_entry rfl rfl rfl, fun p => ⟨unset p, (ports p).beforeSetUp (unset p)⟩⟩

end Sys2Proof.Machine

/-! ## The outcomes of an operation (R226(c), R281, 93 U1, U10, U17)

`exec_outcome` says once how any operation in any state can end: by one of the two refusals, each with its reason, or by a
run that sends only to the hosts the operation is about. The refusals and the fault are read off it. -/

namespace Sys2Proof.Machine

/-- Why an operation is refused as `notSetUp`: its port, or for a pass some port, is not set up (R281, 93 U1). -/
def NeedsSetup (i : Instr) (s : State) : Prop :=
  (∃ p, instrPort i = some p ∧ (s.regs p).setUp = false ∧ i ≠ .setup p ∧ ∀ b, i ≠ .uartRxIrq p b) ∨
    i = .runPass ∧ ¬ DeviceUp s

/-- Why an operation is refused as `setUpTwice`: it would set up a port that is set up already (93 U17). -/
def RepeatsSetup (i : Instr) (s : State) : Prop :=
  (∃ p, i = .setup p ∧ (s.regs p).setUp = true) ∨ i = .mainEntry ∧ ∃ p, (s.regs p).setUp = true

/-- The ports whose hosts an operation may send to: its own, or for an operation of none every port. -/
def MaySendTo (i : Instr) (p : Port) : Prop := instrPort i = none ∨ instrPort i = some p

/-- How an operation ends: refused with a reason, completed without a send, or run to a state, there possibly stuck in a
`HostSend`. -/
inductive ExecOutcome (i : Instr) (s : State) : Prop
  | notSetUp (answer : exec i s = .refused .notSetUp) (why : NeedsSetup i s)
  | setUpTwice (answer : exec i s = .refused .setUpTwice) (why : RepeatsSetup i s)
  | completes (u : State) (answer : exec i s = .next u)
  | runs (u : State) (answer : RunsTo (exec i s) u) (sends : SendsTo (MaySendTo i) s u)

section

variable {i : Instr} {p : Port} {s u : State} {r : Refusal} {f : Fault}

/-! ### The two refusals -/

theorem exec_of_not_setUp (hi : instrPort i = some p) (hset : (s.regs p).setUp = false) (hs : i ≠ .setup p)
    (hu : ∀ b, i ≠ .uartRxIrq p b) : exec i s = .refused .notSetUp := by
  obtain ⟨k, hk⟩ := exec_eq_guardPort hi hs hu
  rw [hk, guardPort_beforeSetUp hset]

theorem exec_uartRxIrq_of_not_setUp (hset : (s.regs p).setUp = false) (b : Byte) : exec (.uartRxIrq p b) s = .next s := by
  have dead : s.live p = false := by simp [State.live, hset]
  exact congrArg _ (uartReceive_of_not_live dead b)

theorem deviceUp_iff : DeviceUp s ↔ ((s.regs .p0).setUp && (s.regs .p1).setUp) = true := by
  rw [Bool.and_eq_true]
  exact ⟨fun h => ⟨h .p0, h .p1⟩, fun ⟨h0, h1⟩ p => by cases p <;> assumption⟩

theorem exec_runPass_of_not_deviceUp (h : ¬ DeviceUp s) : exec .runPass s = .refused .notSetUp :=
  if_neg fun both => h (deviceUp_iff.mpr both)

theorem exec_setup_of_setUp (h : (s.regs p).setUp = true) : exec (.setup p) s = .refused .setUpTwice := if_pos h

theorem exec_mainEntry_of_setUp (h : (s.regs p).setUp = true) : exec .mainEntry s = .refused .setUpTwice := by
  cases p <;> simp [exec, execMainEntry, h]

/-! ### Every outcome -/

theorem execOutcome_port (hi : instrPort i = some p) : ExecOutcome i s := by
  have own : MaySendTo i p := .inr hi
  by_cases hs : i = .setup p
  · subst hs
    cases hset : (s.regs p).setUp with
    | true => exact .setUpTwice (exec_setup_of_setUp hset) (.inl ⟨p, rfl, hset⟩)
    | false =>
      have runs : exec (.setup p) s = stallOutcome (setup p s) := by simp [exec, execSetup, hset]
      exact .runs _ (.inr runs) (sends_setup own (sends_refl _ s))
  · cases hset : (s.regs p).setUp with
    | true =>
      obtain ⟨u, runs, sends⟩ := runsTo_exec_port own hi hs hset
      exact .runs u runs sends
    | false =>
      by_cases hu : ∃ b, i = .uartRxIrq p b
      · obtain ⟨b, rfl⟩ := hu
        exact .completes s (exec_uartRxIrq_of_not_setUp hset b)
      · have hu : ∀ b, i ≠ .uartRxIrq p b := not_exists.mp hu
        exact .notSetUp (exec_of_not_setUp hi hset hs hu) (.inl ⟨p, hi, hset, hs, hu⟩)

theorem execOutcome_global (hi : instrPort i = none) : ExecOutcome i s := by
  have all : ∀ p, MaySendTo i p := fun _ => .inl hi
  cases i with
  | irqHandler => exact .completes _ rfl
  | idleWait => exact .completes _ rfl
  | transportService => exact .runs _ (.inr rfl) (sends_transportService all (sends_refl _ s))
  | runPass =>
    by_cases hup : DeviceUp s
    · exact .runs _ (.inr (if_pos (deviceUp_iff.mp hup))) (sends_runPass all (sends_refl _ s))
    · exact .notSetUp (exec_runPass_of_not_deviceUp hup) (.inr ⟨rfl, hup⟩)
  | mainEntry =>
    by_cases hset : ∃ p, (s.regs p).setUp = true
    · obtain ⟨p, hp⟩ := hset
      exact .setUpTwice (exec_mainEntry_of_setUp hp) (.inr ⟨rfl, p, hp⟩)
    · have unset : ∀ p, (s.regs p).setUp = false := fun p => Bool.eq_false_iff.mpr (not_exists.mp hset p)
      exact .runs _ (.inr (exec_mainEntry unset)) (sends_mainEntry all (sends_refl _ s))
  | deviceReset c =>
    cases h : resetEnabled s c with
    | true => exact .completes _ (exec_deviceReset_of_enabled h)
    | false => exact .completes _ (exec_deviceReset_of_not_enabled h)
  | _ => cases hi

theorem exec_outcome (i : Instr) (s : State) : ExecOutcome i s := by
  cases hi : instrPort i with
  | some p => exact execOutcome_port hi
  | none => exact execOutcome_global hi

/-! ### What a refusal and a fault tell -/

/-- An operation that has run to a state is not refused. -/
theorem not_refused_of_runsTo {x : Host.Outcome State Fault Refusal} (h : RunsTo x u) : x ≠ .refused r := by
  obtain h | ⟨p, h⟩ := next_or_stalled_of_runsTo h <;> rw [h] <;> nofun

theorem reason_of_refused (h : exec i s = .refused r) :
    r = .notSetUp ∧ NeedsSetup i s ∨ r = .setUpTwice ∧ RepeatsSetup i s := by
  cases exec_outcome i s with
  | notSetUp answer why =>
    cases h.symm.trans answer
    exact .inl ⟨rfl, why⟩
  | setUpTwice answer why =>
    cases h.symm.trans answer
    exact .inr ⟨rfl, why⟩
  | completes u answer => cases h.symm.trans answer
  | runs u answer _ => exact absurd h (not_refused_of_runsTo answer)

/-- An operation sends to some port, if it sends at all. -/
theorem exists_maySendTo (i : Instr) : ∃ p, MaySendTo i p := by
  cases hi : instrPort i with
  | some p => exact ⟨p, .inr hi⟩
  | none => exact ⟨.p0, .inl hi⟩

/-- A run that sends only where the environment does its duty completes (R229). -/
theorem next_of_duty {x : Host.Outcome State Fault Refusal} (h : RunsTo x u) (sends : SendsTo (MaySendTo i) s u)
    (duty : ∀ p, MaySendTo i p → HostTakes p s) : x = .next u := by
  obtain ⟨p, hp⟩ := exists_maySendTo i
  have takes : HostTakes p u := sends.duty duty p (duty p hp)
  exact next_of_runsTo h (hostTakes_stalled takes)

/-- The only fault is a stuck `HostSend`, and only where the environment fails its duty toward a port that the operation
may send to (R226(c), 93 U10). -/
theorem stalled_of_fault (h : exec i s = .fault f) :
    (∃ q, f = .hostSendStalled q) ∧ ¬ ∀ p, MaySendTo i p → HostTakes p s := by
  cases exec_outcome i s with
  | notSetUp answer | setUpTwice answer | completes _ answer => cases h.symm.trans answer
  | runs u answer sends =>
    refine ⟨?_, fun duty => by cases h.symm.trans (next_of_duty answer sends duty)⟩
    obtain next | ⟨q, stuck⟩ := next_or_stalled_of_runsTo answer
    · cases h.symm.trans next
    · cases h.symm.trans stuck
      exact ⟨q, rfl⟩

/-- An operation of one port sends to the host of that port only. -/
theorem maySendTo_iff_eq (hi : instrPort i = some p) (q : Port) : MaySendTo i q ↔ p = q := by
  simp [MaySendTo, hi]

end

/-- Settles O14: the refusals and the ignored byte by their own lemmas, and that nothing else is refused or stuck by
`exec_outcome`. -/
theorem refusedAroundSetup : Obligations.RefusedAroundSetup := by
  refine ⟨fun i p s hi hset hs => ⟨?_, ?_⟩, fun s p hset => ⟨exec_setup_of_setUp hset, exec_mainEntry_of_setUp hset⟩,
    fun i s r h => reason_of_refused h, fun i s f h => ?_⟩
  · exact exec_runPass_of_not_deviceUp fun hup => by simp [hup p] at hset
  · by_cases hu : ∃ b, i = .uartRxIrq p b
    · obtain ⟨b, rfl⟩ := hu
      exact .inl ⟨b, rfl, exec_uartRxIrq_of_not_setUp hset b⟩
    · exact .inr (exec_of_not_setUp hi hset hs (not_exists.mp hu))
  · obtain ⟨stuck, noDuty⟩ := stalled_of_fault h
    refine ⟨stuck, not_forall.mp fun duty => noDuty fun p _ => duty p, fun p hi takes => noDuty fun q hq => ?_⟩
    obtain rfl := (maySendTo_iff_eq hi q).mp hq
    exact takes

end Sys2Proof.Machine
